-- ==== Sys2Proof/Word.lean ====
section
/-! DEFINITION. The plain types shared by the whole model: bytes, port numbers, the characters of
the data path (00_scope.md, section 0.3), and the pin levels a reset reads. -/

namespace Sys2Proof

/-- One byte of a message. -/
abbrev Byte := BitVec 8

/-- A two-byte number: frame ids, sequence numbers, epochs, notice numbers. -/
abbrev Half := BitVec 16

/-- A 32-bit number: the time base and the ingress counters. -/
abbrev Word32 := BitVec 32

/-- A port number, 0 to 15: ingress n is the receive side, egress n the transmit side. -/
abbrev Port := Fin 16

/-- A slot of the plan table, 0 to 7 (R70). -/
abbrev SlotId := Fin 8

/-- A sense input, 0 to 3. -/
abbrev SenseId := Fin 4

/-- An assembly context, 0 or 1 (section 7.1). -/
abbrev ContextId := Fin 2

/-- A condition id, 0 to 39 (section 8.1). -/
abbrev CondId := Fin 40

/-- The character set of the data path (section 0.3).  `opn` is OPEN. -/
inductive Character where
  | data (v : Byte)
  | fill
  | opn
  | shut
  | abort
  | mark
  | violation
deriving DecidableEq, Repr

/-- What began a hardware reset (R168). -/
inductive HardwareCause where
  | power
  | pin
deriving DecidableEq, Repr

/-- The strap inputs read during a reset (R123, R154): the LRATE value 0 to 3, and TEP (`true` is
high). -/
structure Straps where
  lrate : Fin 4
  tepHigh : Bool
deriving DecidableEq, Repr

/-- The input levels at the end of a hardware reset: the straps (R123, R154), SD0 to SD15 (R9, bit n
is SDn), SENSE0 to SENSE3 (R143), and the observed GRDY level (R108). -/
structure Inputs where
  straps : Straps
  sd : BitVec 16
  sense : BitVec 4
  grdyHigh : Bool
deriving DecidableEq, Repr

end Sys2Proof
end

