-- ==== Sys2Proof/Syntax.lean ====
section
/-! DEFINITION. The commands of the block: one constructor for each row of spec/opcode_table.json.
The request rows carry no operand: the executor takes the request at the head of the intake queue
(R163), and its tag and payload stand there. -/

namespace Sys2Proof

/-- A command or event the block takes, one per row of spec/opcode_table.json. -/
inductive Instr where
  /-- Power-on or RESET_N low begins a hardware reset; `tepHigh` is the TEP strap as read (R123, R167). -/
  | hardwareReset (cause : HardwareCause) (tepHigh : Bool)
  /-- The end of a hardware reset, with the input levels it reads (R168). -/
  | hardwareResetEnd (inputs : Inputs)
  /-- The end of the 20 us restart, with the straps it reads (R169). -/
  | restartEnd (straps : Straps)
  /-- The framer hands over a whole message with a good check value (R158, R161). -/
  | requestArrival (kind tag : Byte) (payload : List Byte)
  /-- A message is discarded for a framing error or a wrong check value (R160). -/
  | checkFailure
  /-- A LEN byte of 0, 1 or 251 to 255 (R157). -/
  | lenOutOfRange (len : Byte)
  /-- 10 ms of silence inside a message (R159). -/
  | gapTimerExpiry
  /-- The executor takes a request of unknown kind (R164). -/
  | unknownRequestKind
  | echo
  | status
  | restart
  | setFraming
  | setPort
  | portStatus
  | connect
  | mapRead
  | guardControl
  | planLoad
  | planArm
  | planFire
  /-- `qualifiedFirst`: a qualification that completes at this moment is taken first at the group
  interface, while the plan controller takes the cancel first (R107, third outcome). -/
  | planCancel (qualifiedFirst : Bool)
  | planRead
  | planRelease
  | groupConfig
  | groupStatus
  | patternConfig
  | injectStart
  | injectCont
  | injectAbort
  | poolStatus
  | conditionsRead
  | conditionsClear
  | subscribe
  /-- The last stop bit of the message on MTX has been sent (R166). -/
  | sendComplete
  | sdDeassert (p : Port)
  | sdAssert (p : Port)
  | sdLossTimerExpiry (p : Port)
  /-- The line decoder of ingress `p` finds the character `c`; in HUNT, `realigned` says that it
  was found in another alignment than the character before it (R2). -/
  | characterReceived (p : Port) (c : Character) (realigned : Bool)
  /-- One character time of the read side of ingress `p` (R10, R15). -/
  | trackerRead (p : Port)
  | noiseWindowEnd (p : Port)
  | trafficTimerExpiry (p : Port)
  | drainEnd (e : Port)
  | deadlineExpiry (e : Port)
  | joinComplete (e : Port)
  /-- The plan controller takes the settle event of the plan edit of egress `e` (R88). -/
  | editSettle (e : Port)
  | armExpiry (slot : SlotId)
  /-- `qualifiedFirst`: as for `planCancel`, the third outcome of R106. -/
  | groupWaitExpiry (slot : SlotId) (qualifiedFirst : Bool)
  | holdOffExpiry (e : Port)
  | waitToRestoreExpiry (e : Port)
  /-- The observed level of GRDY changes to `high` (R97). -/
  | grdyLevelChange (high : Bool)
  | qualificationComplete
  | holdExpiry
  | faultTimerExpiry
  | patternFrameStart
  | injectFrameStart (e : Port)
  | injectFrameSent (e : Port)
  | assemblyTimeout (k : ContextId)
  | senseRise (n : SenseId)
  | senseFall (n : SenseId)
  | senseQualified (n : SenseId)
  /-- The receiver delivers one byte from MRX, marked when its stop bit was low (R154, R157). -/
  | byteReceived (b : Byte) (framingError : Bool)
deriving DecidableEq, Repr

end Sys2Proof
end

