-- ==== Sys2Proof/Decode.lean ====
section
/-! DEFINITION. The command a word spells by the bits of spec/opcode_table.json.  No row of that
table gives bits (every row's "fields" is empty and none has "fixed"), so no word spells a command
(log entry 3).  The wire format of the block's own messages is decoded in Machine/Operands.lean. -/

namespace Sys2Proof

/-- The command spelled by a word of `nbits` bits: none, for the table gives no row any bits. -/
def decodeTableWord (_nbits _w : Nat) : Option Instr := none

end Sys2Proof
end

