-- ==== Sys2Proof/Config.lean ====
section
/-! DEFINITION. What is fixed for the machine, and its free values: the order in which events that the
manual leaves unordered are taken, the level of a strap and the soundness of a wire that no command gives. -/

namespace Sys2Proof.Config

/-- The free choice of the model.  Where the manual says that "either may be taken first" inside one
step (R83, R153) the step draws from it: the argument is the counter `State.draws`.  It has no body,
so a claim holds whatever order it gives (log entry 2). -/
opaque freeChoice : Nat → Nat

/-- The level of the TEP strap, `true` high, as the part reads it while a restart is in progress (R123): an
input that no command gives.  The argument is the counter `State.draws`; it has no body (log entry 21). -/
opaque tepReading : Nat → Bool

/-- Whether the wiring of GRDY is sound as the part begins to pull the line low (R97): then the line reads LOW at
once, and else it may go on reading HIGH (R108).  No command gives it: the argument is the counter
`State.draws`, and it has no body (log entry 19). -/
opaque grdySound : Nat → Bool

/-- The part code (R168). -/
def partCode : Half := 0x1610

/-- The silicon revision of "parts described by this manual" (R168). -/
def siliconRevision : Byte := 1

/-- Character times in a microsecond: one ct is 10 ns at the nominal rate (section 0.7). -/
def ctPerUs : Nat := 100

/-- Character times in a millisecond. -/
def ctPerMs : Nat := 100000

/-- Character times in a second. -/
def ctPerS : Nat := 100000000

end Sys2Proof.Config
end

