-- ==== Sys2Proof/Machine/Blocks.lean ====
section
/-! DEFINITION. The state each block of the part holds (section 0.1), block by block.  Timers are
counts of character times still to run: one ct is 10 ns (section 0.7). -/

namespace Sys2Proof.Machine

/-! ### Ingress sections (Chapter 1) -/

/-- The five line states (section 1.3). -/
inductive LineState where
  | dark
  | hunt
  | quiet
  | carry
  | noisy
deriving DecidableEq, Repr

/-- The frame tracker (section 1.5).  While INSIDE it keeps the data count and the latched limit
(R15, R16), and of the frame so far the sequence number read from its first two bytes and whether
every later byte has agreed with it, which is all the pattern check of R22 needs. -/
inductive Tracker where
  | outside
  | inside (count limit : Nat) (seq : Half) (agrees : Bool)
  | discard
deriving DecidableEq, Repr

/-- One thing standing in the elastic buffer: a character, or a mark that holds no space (R13). -/
inductive BufItem where
  | char (c : Character)
  | lostOpen
  | slip
deriving DecidableEq, Repr

/-- The noise window in progress: its position in ct and its VIOLATION count (R5). -/
structure Window where
  pos : Nat
  count : Nat
deriving DecidableEq, Repr

/-- The eleven counters of an ingress, in the order of R20. -/
inductive Counter where
  | framesGood
  | framesAborted
  | framesCut
  | runaways
  | violations
  | slips
  | strayDelimiters
  | marks
  | patternGood
  | patternBad
  | patternGaps
deriving DecidableEq, Repr

/-- NORMAL or VERIFY (R21). -/
inductive IngressMode where
  | normal
  | verify
deriving DecidableEq, Repr

/-- The transmit-enable mode of a port (R121). -/
inductive TxenMode where
  | auto
  | on
  | off
deriving DecidableEq, Repr

/-- One ingress section with its port's settings (section 1.1). -/
structure Ingress where
  /-- the level of SDn: `true` is asserted -/
  sd : Bool
  line : LineState
  /-- SD loss timer, toward 1 us -/
  sdLoss : Option Nat
  /-- HUNT only: characters other than VIOLATION found so far in one alignment (R2) -/
  searchRun : Nat
  /-- consecutive VIOLATIONs (R3) -/
  violationRun : Nat
  /-- traffic timer, toward 100 ms (R4) -/
  traffic : Option Nat
  window : Option Window
  /-- consecutive quiet windows while NOISY (R7) -/
  quietWindows : Nat
  /-- VIOLATION count of the last completed window (R5) -/
  lastWindow : Nat
  buffer : List BufItem
  priming : Bool
  /-- an overflow while INSIDE: the tracker receives a slip in the next character time (R12) -/
  slipPending : Bool
  tracker : Tracker
  /-- the ABORT of R19 is still to be emitted -/
  abortDue : Bool
  /-- the character the clean stream last offered, and its frame position (R14) -/
  clean : Character
  cleanInside : Bool
  /-- the read of the present character time is still to be made (R10) -/
  readDue : Bool
  /-- a MARK event given in the present character time and not yet taken (R81) -/
  markDue : Bool
  counters : Vector Word32 11
  /-- the pattern checker's expected sequence (R21) -/
  expected : Option Half
  threshold : Byte
  mode : IngressMode
  txen : TxenMode
deriving DecidableEq, Repr

/-! ### Entry records and egress selectors (Chapter 2) -/

/-- A source value (section 2.1). -/
inductive Source where
  | ingress (p : Port)
  | fill
  | pattern
  | inject
  | hold
deriving DecidableEq, Repr

inductive Policy where
  | clean
  | force
deriving DecidableEq, Repr

/-- The restore mode, with the wait-to-restore in seconds, present only with REVERT. -/
inductive Restore where
  | stay
  | revert (seconds : Nat)
deriving DecidableEq, Repr

/-- The guard fields of an entry record; the hold-off in steps of 10 ms. -/
structure GuardFields where
  standby : Port
  requireTraffic : Bool
  holdOff : Nat
  restore : Restore
deriving DecidableEq, Repr

/-- The entry record of an egress (section 2.1). -/
structure Entry where
  source : Source
  policy : Policy
  guard : Option GuardFields
deriving DecidableEq, Repr

/-- The outcome of a change (R42). -/
inductive Settlement where
  | clean
  | forced
  | deadline
  | superseded
deriving DecidableEq, Repr

/-- Who asked for a change (section 2.2): CONNECT with its tag and notify flag, a plan by its id, or
the guard unit with the identity of the guard record that asked (R53). -/
inductive Requester where
  | connect (tag : Byte) (notify : Bool)
  | plan (id : Byte)
  | guard (ident : Nat)
deriving DecidableEq, Repr

/-- The cut record of a change: none, FORCED or DEADLINE (section 2.2). -/
inductive CutRecord where
  | none
  | forced
  | deadline
deriving DecidableEq, Repr

/-- A change of source: its target, policy, deadline remaining in ct (absent when the change has no
deadline), requester and cut record (sections 2.2 and 2.4). -/
structure Change where
  target : Source
  policy : Policy
  deadline : Option Nat
  requester : Requester
  cut : CutRecord
deriving DecidableEq, Repr

inductive SelState where
  | off
  | joining
  | steady
  | draining
deriving DecidableEq, Repr

/-- A settle event handed to the plan controller and not yet taken by it (R85, R88). -/
structure PlanSettle where
  id : Byte
  outcome : Settlement
  sourceDown : Bool
deriving DecidableEq, Repr

/-- One egress selector with its entry record and the line it drives (section 2.2, R120). -/
structure Egress where
  entry : Entry
  state : SelState
  current : Source
  change : Option Change
  /-- the frame position: `true` is INSIDE -/
  inside : Bool
  /-- DRAINING only: the old source's character of this character time, not yet sent, because the
  frame's terminator or the deadline is due (R37, R39) -/
  held : Option Character
  /-- the character the output stage last put on the line; none when it sends nothing (R120) -/
  line : Option Character
  planSettle : Option PlanSettle
deriving DecidableEq, Repr

/-! ### The guard unit (Chapter 3) -/

inductive Selection where
  | primary
  | standby
deriving DecidableEq, Repr

/-- The override a suspended guard remembers (R66). -/
inductive Override where
  | none
  | locked
  | forced
deriving DecidableEq, Repr

/-- The guard states (section 3.1), with the timer of HOLDOFF and RESTORE_WAIT, and what SUSPENDED
remembers before a plan's fire.  The selection follows from the state (R176). -/
inductive GuardState where
  | watching
  | holdoff (left : Nat)
  | primaryDown
  | onStandby
  | restoreWait (left : Nat)
  | locked
  | forced
  | suspended (selection : Selection) (remembered : Override)
  | suspendedFired
deriving DecidableEq, Repr

/-- The last switch of a guard (R54). -/
structure LastSwitch where
  target : Selection
  outcome : Settlement
  sourceDown : Bool
deriving DecidableEq, Repr

/-- A guard record, with the identity that tells it from earlier records of its egress (R53). -/
structure Guard where
  ident : Nat
  state : GuardState
  last : Option LastSwitch
deriving DecidableEq, Repr

/-! ### The plan controller (Chapter 4) -/

/-- The ready condition of a GROUP plan (R102). -/
inductive Ready where
  | none
  | sourcesFit
deriving DecidableEq, Repr

inductive Trigger where
  | now
  | fire
  | mark (p : Port)
  | sense (n : SenseId)
  | group (ready : Ready)
deriving DecidableEq, Repr

inductive PlanState where
  | loaded
  | armed
  | applying
  | done
  | expired
  | cancelled
deriving DecidableEq, Repr

structure EditOutcome where
  outcome : Settlement
  sourceDown : Bool
deriving DecidableEq, Repr

/-- One edit of a plan, with its outcome once it has settled. -/
structure Edit where
  egress : Port
  entry : Entry
  outcome : Option EditOutcome
deriving DecidableEq, Repr

inductive ExpiryReason where
  | armTimeout
  | groupTimeout
deriving DecidableEq, Repr

/-- A plan record (section 4.1).  `armExpiry` and `groupWait` in ms, `drainDeadline` in ct. -/
structure Plan where
  id : Byte
  state : PlanState
  trigger : Trigger
  armExpiry : Nat
  groupWait : Nat
  drainDeadline : Nat
  fireNotice : Bool
  edits : List Edit
  timer : Option Nat
  fireTime : Option Word32
  doneTime : Option Word32
  reason : Option ExpiryReason
  epochAtFire : Option Half
deriving DecidableEq, Repr

/-! ### The group interface (Chapter 5) -/

/-- The member states, with the qualification timer of RELEASED and the hold timer of HOLD. -/
inductive MemberState where
  | lowIdle
  | lowWait
  | released (qualification : Option Nat)
  | hold (left : Nat)
deriving DecidableEq, Repr

/-- The membership; a member state exists only while MEMBER (R98). -/
inductive Membership where
  | unset
  | member (m : MemberState)
  | nonMember
deriving DecidableEq, Repr

/-- The group plan record (R101). -/
structure GroupPlan where
  id : Byte
  applying : Bool
  ready : Ready
  sources : List Port
deriving DecidableEq, Repr

/-- The group interface.  The drive follows from the membership (R98). -/
structure Group where
  membership : Membership
  plan : Option GroupPlan
  /-- the observed level of GRDY: `true` is HIGH -/
  high : Bool
  faultTimer : Option Nat
  /-- a fault episode is in progress -/
  episode : Bool
  epoch : Half
deriving DecidableEq, Repr

/-! ### The PATTERN generator (Chapter 6) -/

/-- The phase of the generator, with the frame sequence, latched length, latched gap and position
of FRAME and GAP (R113). -/
inductive PatternPhase where
  | idle
  | frame (seq : Half) (length gap pos : Nat)
  | gap (seq : Half) (length gap pos : Nat)
deriving DecidableEq, Repr

structure Pattern where
  enable : Bool
  length : Nat
  gap : Nat
  phase : PatternPhase
  next : Half
  /-- the present character time is a frame start whose event is still to be taken (R115) -/
  startDue : Bool
deriving DecidableEq, Repr

/-! ### The injection buffer (Chapter 7) -/

/-- A stored frame: a descriptor with the bytes its blocks hold.  Its target egress is the queue it
stands in, its length the number of its bytes. -/
structure Frame where
  id : Half
  notify : Bool
  bytes : List Byte
deriving DecidableEq, Repr

/-- A frame being sent on a view: the DATA characters offered so far, and whether its SHUT is due. -/
structure SendingFrame where
  frame : Frame
  sent : Nat
  shutDue : Bool
deriving DecidableEq, Repr

/-- The INJECT view and the queue of one egress (R133, R134). -/
structure View where
  queue : List Frame
  sending : Option SendingFrame
  /-- FILL offered since the last frame, up to 8 -/
  gap : Nat
  /-- the present character time is one in which a frame starts (R134) -/
  startDue : Bool
deriving DecidableEq, Repr

/-- An OPEN assembly context; bytes received is the number of its bytes (section 7.1). -/
structure Context where
  target : Port
  id : Half
  total : Nat
  notify : Bool
  bytes : List Byte
  lastFragment : Word32
  timer : Nat
deriving DecidableEq, Repr

structure Pool where
  freeBlocks : Nat
  freeDescriptors : Nat
  nextId : Half
  views : Vector View 16
  contexts : Vector (Option Context) 2
deriving DecidableEq, Repr

/-! ### Conditions, sense inputs and notices (Chapter 8) -/

structure Condition where
  latch : Bool
  count : Byte
  subscribed : Bool
  pending : Bool
deriving DecidableEq, Repr

inductive Qualifier where
  | low
  | qualifying (left : Nat)
  | high
deriving DecidableEq, Repr

structure Sense where
  level : Bool
  qualifier : Qualifier
deriving DecidableEq, Repr

/-- The reset cause of a HELLO notice (R168). -/
inductive ResetCause where
  | power
  | pin
  | request
deriving DecidableEq, Repr

inductive PlanEvent where
  | fired
  | done
  | expired
deriving DecidableEq, Repr

inductive FiredBy where
  | trigger
  | override
deriving DecidableEq, Repr

/-- The body of a PLAN notice (R96); absent fields are none, counts that do not apply are 0. -/
structure PlanNotice where
  event : PlanEvent
  id : Byte
  slot : SlotId
  trigger : Trigger
  firedBy : Option FiredBy
  epoch : Option Half
  reason : Option ExpiryReason
  editCount : Nat
  clean : Nat
  forced : Nat
  deadline : Nat
  down : Nat
deriving DecidableEq, Repr

/-- The body of a notice.  A CONDITION notice's latch and count, and HELLO's time base, are read
when the notice is sent (R150, R168). -/
inductive NoticeBody where
  | hello (cause : ResetCause) (straps : Straps)
  | condition (id : CondId)
  | plan (n : PlanNotice)
  | settled (egress : Port) (tag : Byte) (source : Source) (outcome : Settlement) (sourceDown : Bool)
  | injectSent (egress : Port) (id : Half) (length : Nat)
  | assemblyTimeout (egress : Port) (id : Half) (received : Nat)
  | targetChanged (egress : Port) (queued contexts : Nat)
  | frameCut (egress : Port) (id : Half) (length sent : Nat)
  | overflow (lost : Byte) (firstLoss : Word32)
deriving DecidableEq, Repr

structure Notice where
  number : Half
  time : Word32
  body : NoticeBody
deriving DecidableEq, Repr

/-- The notice queue (section 8.4); the overflow flag is set while a time of first loss is held. -/
structure NoticeQueue where
  entries : List Notice
  next : Half
  lost : Byte
  firstLoss : Option Word32
deriving DecidableEq, Repr

/-! ### The management link interface (Chapter 9) -/

/-- The kind, tag and payload of one message (section 9.2). -/
structure Message where
  kind : Byte
  tag : Byte
  payload : List Byte
deriving DecidableEq, Repr

/-- The receive framer with its partial message (R157, R158): LEN, the body bytes so far in order,
and the running check value. -/
inductive Framer where
  | seek
  | length
  | body (len : Nat) (got : List Byte) (check : Half)
  | checkHigh (got : List Byte) (check : Half)
  | checkLow (got : List Byte) (check : Half) (hi : Byte)
deriving DecidableEq, Repr

/-- The status codes of R178. -/
inductive Status where
  | ok
  | busy
  | tagInUse
  | badTag
  | badKind
  | badLength
  | badField
  | egressClaimed
  | claimConflict
  | dupEgress
  | noSlot
  | idInUse
  | noPlan
  | wrongState
  | tooLate
  | groupBusy
  | notMember
  | notAllowed
  | noSpace
  | notInject
  | noAssembly
  | fragmentOrder
deriving DecidableEq, Repr

/-- A reply waiting in the reply buffer.  `restart` marks the reply of RESTART (R169). -/
structure Reply where
  kind : Byte
  tag : Byte
  status : Status
  result : List Byte
  restart : Bool
deriving DecidableEq, Repr

/-- The message being sent on MTX, with the ct left until its last stop bit has been sent. -/
structure Sending where
  message : Message
  restart : Bool
  left : Nat
deriving DecidableEq, Repr

/-- The management link interface.  The reply buffer is `refusals` followed by `executed` (R165). -/
structure Link where
  framer : Framer
  gapTimer : Option Nat
  intake : List Message
  refusals : List Reply
  executed : List Reply
  restartPending : Bool
  mtx : Option Sending
deriving DecidableEq, Repr

/-- Running, or in a hardware reset, or in the 20 us of a restart (R167, R169). -/
inductive Phase where
  | run
  | hardwareReset (cause : HardwareCause)
  | restart (left : Nat)
deriving DecidableEq, Repr

end Sys2Proof.Machine
end

