-- ==== Sys2Proof/Machine/Initial.lean ====
section
/-! DEFINITION. The state each block takes at a reset, as its chapter gives it. -/

namespace Sys2Proof.Machine

/-- An ingress section after reset (R9, R19, R20, R21, section 1.8), SDn being at level `sd`. -/
def Ingress.afterReset (sd : Bool) : Ingress :=
  { sd := sd
    line := if sd then .hunt else .dark
    sdLoss := none
    searchRun := 0
    violationRun := 0
    traffic := none
    window := none
    quietWindows := 0
    lastWindow := 0
    buffer := []
    priming := false
    slipPending := false
    tracker := .outside
    abortDue := false
    clean := .fill
    cleanInside := false
    readDue := false
    markDue := false
    counters := Vector.replicate 11 0
    expected := none
    threshold := 16
    mode := .normal
    txen := .auto }

/-- An entry record after reset: source HOLD, policy CLEAN, guard absent (R27). -/
def Entry.afterReset : Entry := { source := .hold, policy := .clean, guard := none }

/-- An egress selector after reset (R28): OFF on HOLD, sending nothing (R120). -/
def Egress.afterReset : Egress :=
  { entry := Entry.afterReset
    state := .off
    current := .hold
    change := none
    inside := false
    held := none
    line := none
    planSettle := none }

/-- The group interface after reset (R99); with the drive LOW and the line reading HIGH the fault
timer starts from the end of the reset (R108). -/
def Group.afterReset (high : Bool) : Group :=
  { membership := .unset
    plan := none
    high := high
    faultTimer := if high then some (2 * Config.ctPerUs) else none
    episode := false
    epoch := 0 }

/-- The PATTERN generator after reset (R113). -/
def Pattern.afterReset : Pattern :=
  { enable := false, length := 64, gap := 16, phase := .idle, next := 0, startDue := false }

/-- An INJECT view after reset: no frame, gap count 0 (R126). -/
def View.afterReset : View := { queue := [], sending := none, gap := 0, startDue := false }

/-- The injection buffer after reset (R126). -/
def Pool.afterReset : Pool :=
  { freeBlocks := 128
    freeDescriptors := 32
    nextId := 0
    views := Vector.replicate 16 View.afterReset
    contexts := Vector.replicate 2 none }

/-- A condition after reset (R139). -/
def Condition.afterReset : Condition :=
  { latch := false, count := 0, subscribed := false, pending := false }

/-- The qualifier of a sense input after reset: 200 ns are 20 ct (R143). -/
def Sense.afterReset (level : Bool) : Sense :=
  { level := level, qualifier := if level then .qualifying 20 else .low }

/-- The notice queue after reset (R148). -/
def NoticeQueue.afterReset : NoticeQueue := { entries := [], next := 0, lost := 0, firstLoss := none }

/-- The management link interface at the start of a reset and after it (R167). -/
def Link.afterReset : Link :=
  { framer := .seek
    gapTimer := none
    intake := []
    refusals := []
    executed := []
    restartPending := false
    mtx := none }

end Sys2Proof.Machine
end

