-- ==== Sys2Proof/Machine/State.lean ====
section
/-! DEFINITION. The state of the whole part, the reasons a step can stop, and the state after reset. -/

namespace Sys2Proof.Machine

/-- The whole state of a BK1610, and the queue of commands that wait for it. -/
structure State where
  phase : Phase
  /-- the time base, in us (R170) -/
  timeBase : Word32
  /-- character times since the time base last advanced, 0 to 99 -/
  subMicro : Nat
  /-- the strap inputs as last read -/
  strapPins : Straps
  /-- the strap values in force: taken at the end of the last reset (R123, R154) -/
  straps : Straps
  /-- MAXFRAME (R24) -/
  maxframe : Nat
  ports : Vector Ingress 16
  egresses : Vector Egress 16
  /-- the guard record of each egress (section 3.1) -/
  guards : Vector (Option Guard) 16
  /-- the identity the next guard record takes; the model's own (R53) -/
  guardSerial : Nat
  /-- the plan table: `none` is a FREE slot (R70) -/
  plans : Vector (Option Plan) 8
  /-- the claim map, from egress to plan id (section 4.3) -/
  claims : Vector (Option Byte) 16
  group : Group
  pattern : Pattern
  pool : Pool
  conds : Vector Condition 40
  senses : Vector Sense 4
  notices : NoticeQueue
  link : Link
  /-- how many free choices have been drawn; the model's own (log entry 2) -/
  draws : Nat
  /-- the commands that wait, first in, first out -/
  pending : List Instr
deriving DecidableEq, Repr

/-- The reasons a step can stop with a fault: none.  The manual names no event that stops the part,
so nothing raises a fault, and this type has no constructor. -/
inductive Fault where
deriving DecidableEq, Repr

/-- The reasons a step can refuse a command. -/
inductive Refusal where
  /-- A command that has no meaning yet; raised by exec's arms alone.  Safe: the model stops. -/
  | notModelled (mnemonic : String)
deriving DecidableEq, Repr

/-- The outcome of a command or of a step. -/
abbrev Result := Host.Outcome State Fault Refusal

/-- The machine right after a power-on reset, in the event that ends it (R168): every block holds its
reset state, HELLO was queued as notice 0 with time stamp 0, and the arbiter, finding MTX idle, has
started to send it at once (R166).  The input levels are the model's choice: every SD input
deasserted, every SENSE input low, GRDY low, LRATE 0, TEP low (log entry 4).  The HELLO body is the
one of R184; its 22 bytes last 220 bit times at 57600 bit/s. -/
def State.reset : State :=
  { phase := .run
    timeBase := 0
    subMicro := 0
    strapPins := { lrate := 0, tepHigh := false }
    straps := { lrate := 0, tepHigh := false }
    maxframe := 16384
    ports := Vector.replicate 16 (Ingress.afterReset false)
    egresses := Vector.replicate 16 Egress.afterReset
    guards := Vector.replicate 16 none
    guardSerial := 0
    plans := Vector.replicate 8 none
    claims := Vector.replicate 16 none
    group := Group.afterReset false
    pattern := Pattern.afterReset
    pool := Pool.afterReset
    conds := Vector.replicate 40 Condition.afterReset
    senses := Vector.replicate 4 (Sense.afterReset false)
    notices := { NoticeQueue.afterReset with next := 1 }
    link :=
      { Link.afterReset with
        mtx := some
          { message :=
              { kind := 0x80, tag := 0
                payload := [0, 0, 0, 0, 0, 0, 0x16, 0x10, 1, 0, 0, 0, 0, 0, 0, 0] }
            restart := false
            left := 381945 } }
    draws := 0
    pending := [] }

end Sys2Proof.Machine
end

