-- ==== Sys2Proof/Machine/Ops.lean ====
section
/-! DEFINITION. The shared operations every block uses: the one place each part of the state is
written, timers, the free choice of an order, and the frame of one event. -/

namespace Sys2Proof.Machine

/-! ### Writing one place of the state -/

def State.setPort (s : State) (p : Port) (g : Ingress) : State :=
  { s with ports := s.ports.set p g }

def State.setEgress (s : State) (e : Port) (g : Egress) : State :=
  { s with egresses := s.egresses.set e g }

def State.setGuard (s : State) (e : Port) (g : Option Guard) : State :=
  { s with guards := s.guards.set e g }

def State.setPlan (s : State) (k : SlotId) (p : Option Plan) : State :=
  { s with plans := s.plans.set k p }

def State.setClaim (s : State) (e : Port) (c : Option Byte) : State :=
  { s with claims := s.claims.set e c }

def State.setGroup (s : State) (g : Group) : State := { s with group := g }

def State.setPattern (s : State) (g : Pattern) : State := { s with pattern := g }

def State.setPool (s : State) (p : Pool) : State := { s with pool := p }

def State.setCond (s : State) (c : CondId) (k : Condition) : State :=
  { s with conds := s.conds.set c k }

def State.setSense (s : State) (n : SenseId) (k : Sense) : State :=
  { s with senses := s.senses.set n k }

def State.setNotices (s : State) (q : NoticeQueue) : State := { s with notices := q }

def State.setLink (s : State) (l : Link) : State := { s with link := l }

def State.setMaxframe (s : State) (n : Nat) : State := { s with maxframe := n }

def State.setSerial (s : State) (n : Nat) : State := { s with guardSerial := n }

def State.setDraws (s : State) (n : Nat) : State := { s with draws := n }

def Pool.setView (p : Pool) (e : Port) (v : View) : Pool := { p with views := p.views.set e v }

def Pool.setContext (p : Pool) (k : ContextId) (c : Option Context) : Pool :=
  { p with contexts := p.contexts.set k c }

/-! ### Numbers and lists -/

/-- A count that stops at its greatest value (section 0.7, Counts). -/
def satInc {w : Nat} (x : BitVec w) : BitVec w := if x = BitVec.allOnes w then x else x + 1

/-- A timer one character time later; a timer that has run out stays at 0 until its expiry is
taken. -/
def tickTimer (t : Option Nat) : Option Nat := t.map (· - 1)

/-- The ports, slots, contexts, conditions and sense inputs in ascending order. -/
def allPorts : List Port := List.finRange 16
def allSlots : List SlotId := List.finRange 8
def allContexts : List ContextId := List.finRange 2
def allConds : List CondId := List.finRange 40
def allSenses : List SenseId := List.finRange 4

/-- Milliseconds left on a running timer, rounded up (R69, R93).  A timer at 0 whose expiry is not yet taken
reads as one still running, for 0 ms cannot be read (R180; log entry 31). -/
def ctToMsUp (ct : Nat) : Nat := (ct - 1) / Config.ctPerMs + 1

/-- A list in an order drawn from the free choice, with the counter after the draws.  A list of one
element needs no draw (R83, R153; log entry 2). -/
def arrange {α : Type} : Nat → List α → Nat → List α × Nat
  | 0, xs, d => (xs, d)
  | _ + 1, [], d => ([], d)
  | _ + 1, [x], d => ([x], d)
  | n + 1, x :: y :: zs, d =>
    let k := Config.freeChoice d % (x :: y :: zs).length
    let rest := arrange n ((x :: y :: zs).eraseIdx k) (d + 1)
    (((x :: y :: zs)[k]?).toList ++ rest.1, rest.2)

/-- Do `f` for every member of a list, one after the other, in an order drawn from the free choice. -/
def State.inSomeOrder {α : Type} (s : State) (xs : List α) (f : α → State → State) : State :=
  let r := arrange xs.length xs s.draws
  r.1.foldl (fun t x => f x t) (s.setDraws r.2)

/-- The blocks that still have something to do in this event. -/
def busyBlocks {α : Type} (blocks : List (List α)) : List Nat :=
  (List.range blocks.length).filter fun k => !(blocks.getD k []).isEmpty

/-- What a block does next raises no notice. -/
def State.quietNext (s : State) (block : List (State → State)) : Bool :=
  block.head?.all fun f => decide ((f s).notices = s.notices)

/-- The block that goes on, and the counter after the draw: one that raises no notice now, and else any of
those still busy (R153; log entry 2). -/
def State.nextBlock (s : State) (blocks : List (List (State → State))) : Option Nat × Nat :=
  match busyBlocks blocks with
  | [] => (none, s.draws)
  | [k] => (some k, s.draws)
  | j :: k :: ks =>
    match (j :: k :: ks).find? fun i => s.quietNext (blocks.getD i []) with
    | some i => (some i, s.draws)
    | none => ((j :: k :: ks)[Config.freeChoice s.draws % (j :: k :: ks).length]?, s.draws + 1)

/-- The next `n` things that the blocks do. -/
def State.goOn : Nat → List (List (State → State)) → State → State
  | 0, _, s => s
  | n + 1, blocks, s =>
    match s.nextBlock blocks with
    | (none, _) => s
    | (some k, draws) =>
      match blocks[k]? with
      | some (f :: rest) => State.goOn n (blocks.set k rest) (f (s.setDraws draws))
      | _ => s

/-- What several blocks do together in one event: each block what its list says, in that order, and the
notices of different blocks in any order (R153). -/
def State.together (s : State) (blocks : List (List (State → State))) : State :=
  State.goOn blocks.flatten.length blocks s

/-! ### What blocks read of one another -/

/-- An ingress is fit while its line is QUIET or CARRY (R8). -/
def LineState.fit : LineState → Bool
  | .quiet => true
  | .carry => true
  | .dark => false
  | .hunt => false
  | .noisy => false

/-- An ingress is fit-with-traffic while its line is CARRY (R8). -/
def LineState.carrying : LineState → Bool
  | .carry => true
  | .quiet => false
  | .dark => false
  | .hunt => false
  | .noisy => false

/-- The line decoder delivers characters in QUIET, CARRY and NOISY (section 1.3). -/
def LineState.delivering : LineState → Bool
  | .quiet => true
  | .carry => true
  | .noisy => true
  | .dark => false
  | .hunt => false

/-- The alignment is locked exactly while the decoder delivers characters (R2, section 1.3). -/
def Ingress.aligned (g : Ingress) : Bool := g.line.delivering

def Tracker.isInside : Tracker → Bool
  | .inside _ _ _ _ => true
  | .outside => false
  | .discard => false

/-- An ingress is between frames when its tracker is OUTSIDE or DISCARD and owes no ABORT (R29). -/
def Ingress.betweenFrames (g : Ingress) : Bool := !g.tracker.isInside && !g.abortDue

/-- PATTERN is between frames in GAP and IDLE, and once the SHUT has been offered (R29, R114). -/
def Pattern.betweenFrames (g : Pattern) : Bool :=
  match g.phase with
  | .idle => true
  | .gap _ _ _ _ => true
  | .frame _ len _ pos => decide (len + 1 ≤ pos)

/-- Whether a source is between frames for egress `e` (R29).  HOLD offers no stream (R112). -/
def State.betweenFrames (s : State) (e : Port) : Source → Bool
  | .ingress p => s.ports[p].betweenFrames
  | .fill => true
  | .pattern => s.pattern.betweenFrames
  | .inject => s.pool.views[e].sending.isNone
  | .hold => false

/-- The source_down flag: the source is an ingress that is not fit (R42). -/
def State.sourceDown (s : State) : Source → Bool
  | .ingress p => !s.ports[p].line.fit
  | .fill => false
  | .pattern => false
  | .inject => false
  | .hold => false

/-- A terminator of a frame (section 0.3). -/
def isTerminator : Character → Bool
  | .shut => true
  | .abort => true
  | .data _ => false
  | .fill => false
  | .opn => false
  | .mark => false
  | .violation => false

/-- The frame position after a character has been sent (R30). -/
def positionAfter (c : Character) (inside : Bool) : Bool :=
  match c with
  | .opn => true
  | .shut => false
  | .abort => false
  | .data _ => inside
  | .fill => inside
  | .mark => inside
  | .violation => inside

/-- The transmit enable of port `n`, asserted or not (R121). -/
def State.txenAsserted (s : State) (n : Port) : Bool :=
  match s.phase with
  | .run =>
    match s.ports[n].txen with
    | .auto => decide (s.egresses[n].state ≠ .off)
    | .on => true
    | .off => false
  | .hardwareReset _ => false
  | .restart _ => false

/-- The level of the TXENn output, `true` high (R123): the polarity in force while running, the
strap as it reads during a reset. -/
def State.txenHigh (s : State) (n : Port) : Bool :=
  let tep := match s.phase with
    | .run => s.straps.tepHigh
    | .hardwareReset _ => s.strapPins.tepHigh
    | .restart _ => s.strapPins.tepHigh
  xor (s.txenAsserted n) tep

end Sys2Proof.Machine
end

