-- ==== Sys2Proof/Machine/Operands.lean ====
section
/-! DEFINITION. The coding of fields in messages: numbers, flags, enumerations, the entry record,
notices, the envelope and its check value (Chapter 10, R155). -/

namespace Sys2Proof.Machine

/-! ### Numbers (R174) -/

/-- A two-byte number, high byte first. -/
def halfBytes (h : Half) : List Byte := [h.extractLsb' 8 8, h.extractLsb' 0 8]

/-- A four-byte number, high byte first. -/
def wordBytes (w : Word32) : List Byte :=
  [w.extractLsb' 24 8, w.extractLsb' 16 8, w.extractLsb' 8 8, w.extractLsb' 0 8]

def natByte (n : Nat) : Byte := BitVec.ofNat 8 n
def natHalf (n : Nat) : List Byte := halfBytes (BitVec.ofNat 16 n)

/-- Three bytes, high byte first (R180). -/
def natThree (n : Nat) : List Byte :=
  [BitVec.ofNat 8 (n / 65536), BitVec.ofNat 8 (n / 256), BitVec.ofNat 8 n]

/-- Read a two-byte number. -/
def readHalf (hi lo : Byte) : Half := hi ++ lo

def flagByte (b : Bool) : Byte := if b then 1 else 0

/-- A flag byte of a request: 0 or 1, anything else a field error. -/
def readFlag (b : Byte) : Option Bool := if b = 0 then some false else if b = 1 then some true else none

/-- An absent enumeration, source or flag (R175). -/
def absent : Byte := 0xFF

/-- A number with a presence byte (R175). -/
def presentHalf : Option Half → List Byte
  | some h => 1 :: halfBytes h
  | none => [0, 0, 0]

def presentWord : Option Word32 → List Byte
  | some w => 1 :: wordBytes w
  | none => [0, 0, 0, 0, 0]

/-- A number given as a port, slot or input when it is below `n` (R174). -/
def readBelow (n : Nat) (b : Byte) : Option (Fin n) :=
  if h : b.toNat < n then some ⟨b.toNat, h⟩ else none

/-! ### Enumerations (R176) -/

def LineState.code : LineState → Byte
  | .dark => 0
  | .hunt => 1
  | .quiet => 2
  | .carry => 3
  | .noisy => 4

def Tracker.code : Tracker → Byte
  | .outside => 0
  | .inside _ _ _ _ => 1
  | .discard => 2

def TxenMode.code : TxenMode → Byte
  | .auto => 0
  | .on => 1
  | .off => 2

def TxenMode.read (b : Byte) : Option TxenMode :=
  if b = 0 then some .auto else if b = 1 then some .on else if b = 2 then some .off else none

def IngressMode.code : IngressMode → Byte
  | .normal => 0
  | .verify => 1

def IngressMode.read (b : Byte) : Option IngressMode :=
  if b = 0 then some .normal else if b = 1 then some .verify else none

/-- The selector condition joins state and frame position. -/
def Egress.conditionCode (g : Egress) : Byte :=
  match g.state with
  | .off => 0
  | .joining => 1
  | .steady => if g.inside then 3 else 2
  | .draining => 4

def Settlement.code : Settlement → Byte
  | .clean => 0
  | .forced => 1
  | .deadline => 2
  | .superseded => 3

/-- The outcome byte: outcome code, plus 4 for a STANDBY target, plus 8 with source_down. -/
def outcomeByte (o : Settlement) (standby down : Bool) : Byte :=
  o.code + (if standby then 4 else 0) + (if down then 8 else 0)

/-- The guard condition joins guard state, selection and remembered override. -/
def GuardState.code : GuardState → Byte
  | .watching => 0
  | .holdoff _ => 1
  | .primaryDown => 2
  | .onStandby => 3
  | .restoreWait _ => 4
  | .locked => 5
  | .forced => 6
  | .suspended .primary .none => 7
  | .suspended .standby .none => 8
  | .suspended _ .locked => 9
  | .suspended _ .forced => 10
  | .suspendedFired => 11

/-- The selection that each guard state implies (R176); none after a plan's fire (R68). -/
def GuardState.selection : GuardState → Option Selection
  | .watching => some .primary
  | .holdoff _ => some .primary
  | .primaryDown => some .primary
  | .onStandby => some .standby
  | .restoreWait _ => some .standby
  | .locked => some .primary
  | .forced => some .standby
  | .suspended sel _ => some sel
  | .suspendedFired => none

/-- The timer of HOLDOFF or RESTORE_WAIT, in ct; no other state runs one (R61). -/
def GuardState.timer : GuardState → Option Nat
  | .holdoff left => some left
  | .restoreWait left => some left
  | .watching => none
  | .primaryDown => none
  | .onStandby => none
  | .locked => none
  | .forced => none
  | .suspended _ _ => none
  | .suspendedFired => none

def Selection.code : Selection → Byte
  | .primary => 0
  | .standby => 1

def PlanState.code : PlanState → Byte
  | .loaded => 1
  | .armed => 2
  | .applying => 3
  | .done => 4
  | .expired => 5
  | .cancelled => 6

/-- The code of a slot: 0 is FREE. -/
def slotCode : Option Plan → Byte
  | none => 0
  | some p => p.state.code

def Trigger.code : Trigger → Byte
  | .now => 0
  | .fire => 1
  | .mark _ => 2
  | .sense _ => 3
  | .group _ => 4

def Ready.code : Ready → Byte
  | .none => 0
  | .sourcesFit => 1

/-- The trigger index (section 10.5.4). -/
def Trigger.index : Trigger → Byte
  | .now => 0
  | .fire => 0
  | .mark p => natByte p.val
  | .sense n => natByte n.val
  | .group r => r.code

def Trigger.isGroup : Trigger → Bool
  | .group _ => true
  | .now => false
  | .fire => false
  | .mark _ => false
  | .sense _ => false

/-- Read a trigger kind and index; none when the kind is unknown or the index is out of the range of
its kind (R72). -/
def Trigger.read (kind index : Byte) : Option Trigger :=
  if kind = 0 then (if index = 0 then some .now else none)
  else if kind = 1 then (if index = 0 then some .fire else none)
  else if kind = 2 then (readBelow 16 index).map .mark
  else if kind = 3 then (readBelow 4 index).map .sense
  else if kind = 4 then
    (if index = 0 then some (.group .none) else if index = 1 then some (.group .sourcesFit) else none)
  else none

def ExpiryReason.code : ExpiryReason → Byte
  | .armTimeout => 0
  | .groupTimeout => 1

def PlanEvent.code : PlanEvent → Byte
  | .fired => 0
  | .done => 1
  | .expired => 2

def FiredBy.code : FiredBy → Byte
  | .trigger => 0
  | .override => 1

def Membership.code : Membership → Byte
  | .unset => 0
  | .member _ => 1
  | .nonMember => 2

def Membership.memberCode : Membership → Byte
  | .unset => absent
  | .nonMember => absent
  | .member .lowIdle => 0
  | .member .lowWait => 1
  | .member (.released _) => 2
  | .member (.hold _) => 3

def PatternPhase.code : PatternPhase → Byte
  | .idle => 0
  | .frame _ _ _ _ => 1
  | .gap _ _ _ _ => 2

/-- The frame sequence, present in FRAME and GAP (R113). -/
def PatternPhase.sequence : PatternPhase → Option Half
  | .idle => none
  | .frame seq _ _ _ => some seq
  | .gap seq _ _ _ => some seq

def Qualifier.code : Qualifier → Byte
  | .low => 0
  | .qualifying _ => 1
  | .high => 2

def ResetCause.code : ResetCause → Byte
  | .power => 0
  | .pin => 1
  | .request => 2

/-- Status codes (R178). -/
def Status.code : Status → Byte
  | .ok => 0x00
  | .busy => 0x10
  | .tagInUse => 0x11
  | .badTag => 0x12
  | .badKind => 0x20
  | .badLength => 0x21
  | .badField => 0x22
  | .egressClaimed => 0x30
  | .claimConflict => 0x31
  | .dupEgress => 0x32
  | .noSlot => 0x33
  | .idInUse => 0x34
  | .noPlan => 0x35
  | .wrongState => 0x36
  | .tooLate => 0x37
  | .groupBusy => 0x38
  | .notMember => 0x39
  | .notAllowed => 0x3A
  | .noSpace => 0x40
  | .notInject => 0x41
  | .noAssembly => 0x42
  | .fragmentOrder => 0x43

/-! ### Sources and entry records (R174, R185, R186) -/

def Source.code : Source → Byte
  | .ingress p => natByte p.val
  | .fill => 16
  | .pattern => 17
  | .inject => 18
  | .hold => 19

def Source.read (b : Byte) : Option Source :=
  if h : b.toNat < 16 then some (.ingress ⟨b.toNat, h⟩)
  else if b = 16 then some .fill
  else if b = 17 then some .pattern
  else if b = 18 then some .inject
  else if b = 19 then some .hold
  else none

/-- A guard is valid beside its source: the source an ingress, the standby another, the hold-off and
wait-to-restore in range (R26). -/
def GuardFields.valid (g : GuardFields) (source : Source) : Bool :=
  (match source with
    | .ingress p => decide (p ≠ g.standby)
    | .fill => false
    | .pattern => false
    | .inject => false
    | .hold => false)
  && decide (g.holdOff ≤ 1000)
  && (match g.restore with
    | .stay => true
    | .revert sec => decide (1 ≤ sec) && decide (sec ≤ 900))

/-- A valid entry record (R26). -/
def Entry.valid (e : Entry) : Bool :=
  match e.guard with
  | none => true
  | some g => g.valid e.source

/-- The six bytes of an entry record (R185): byte 1 holds guard present, policy, require_traffic,
restore mode and standby from its top bit down. -/
def Entry.encode (e : Entry) : List Byte :=
  let policy : Byte := match e.policy with
    | .clean => 0
    | .force => 0x40
  match e.guard with
  | none => [e.source.code, policy, 0, 0, 0, 0]
  | some g =>
    let traffic : Byte := if g.requireTraffic then 0x20 else 0
    let mode : Byte := match g.restore with
      | .stay => 0
      | .revert _ => 0x10
    let wait := match g.restore with
      | .stay => 0
      | .revert sec => sec
    [e.source.code, 0x80 ||| policy ||| traffic ||| mode ||| natByte g.standby.val]
      ++ natHalf g.holdOff ++ natHalf wait

/-- Decode the six bytes of an entry record; none when the record is not valid (R186). -/
def Entry.decode (b0 b1 b2 b3 b4 b5 : Byte) : Option Entry :=
  match Source.read b0 with
  | none => none
  | some source =>
    let policy : Policy := if b1.getLsbD 6 then .force else .clean
    if b1.getLsbD 7 then
      let wait := (readHalf b4 b5).toNat
      let fields : GuardFields :=
        { standby := (b1.extractLsb' 0 4).toFin
          requireTraffic := b1.getLsbD 5
          holdOff := (readHalf b2 b3).toNat
          restore := if b1.getLsbD 4 then .revert wait else .stay }
      if fields.valid source && (b1.getLsbD 4 || decide (wait = 0)) then
        some { source := source, policy := policy, guard := some fields }
      else none
    else if b1.extractLsb' 0 6 = 0 ∧ b2 = 0 ∧ b3 = 0 ∧ b4 = 0 ∧ b5 = 0 then
      some { source := source, policy := policy, guard := none }
    else none

/-- The edits of a PLAN_LOAD, 7 bytes each: egress, entry record (section 10.5.4). -/
def decodeEdits : List Byte → Option (List Edit)
  | [] => some []
  | e :: b0 :: b1 :: b2 :: b3 :: b4 :: b5 :: rest =>
    match readBelow 16 e, Entry.decode b0 b1 b2 b3 b4 b5, decodeEdits rest with
    | some egress, some entry, some edits =>
      some ({ egress := egress, entry := entry, outcome := none } :: edits)
    | _, _, _ => none
  | _ :: _ => none

/-- One edit of a PLAN_READ result: egress, entry record, outcome byte (R181). -/
def Edit.encode (d : Edit) : List Byte :=
  natByte d.egress.val :: d.entry.encode
    ++ [match d.outcome with
        | none => absent
        | some o => outcomeByte o.outcome false o.sourceDown]

/-- The edit outcomes of a plan that settled with outcome `o`. -/
def countOutcomes (edits : List Edit) (o : Settlement) : Nat :=
  edits.countP (fun d => decide (d.outcome.map (·.outcome) = some o))

/-- The edit outcomes of a plan with source_down set. -/
def countDown (edits : List Edit) : Nat :=
  edits.countP (fun d => decide (d.outcome.map (·.sourceDown) = some true))

/-! ### Notices (R183, R184) -/

def NoticeBody.kind : NoticeBody → Byte
  | .hello _ _ => 0x80
  | .condition _ => 0x81
  | .plan _ => 0x82
  | .settled _ _ _ _ _ => 0x83
  | .injectSent _ _ _ => 0x84
  | .assemblyTimeout _ _ _ => 0x85
  | .targetChanged _ _ _ => 0x85
  | .frameCut _ _ _ _ => 0x85
  | .overflow _ _ => 0x86

def PlanNotice.encode (n : PlanNotice) : List Byte :=
  [n.event.code, n.id, natByte n.slot.val, n.trigger.code, (n.firedBy.map FiredBy.code).getD absent]
    ++ presentHalf n.epoch
    ++ [(n.reason.map ExpiryReason.code).getD absent, natByte n.editCount, natByte n.clean,
        natByte n.forced, natByte n.deadline, natByte n.down]

/-- The body bytes of a notice, as they are when the notice starts to be sent: `s` gives the latch
and count of a CONDITION notice and the time base of HELLO (R150, R166, R168). -/
def NoticeBody.encode (s : State) : NoticeBody → List Byte
  | .hello cause straps =>
    halfBytes Config.partCode
      ++ [Config.siliconRevision, cause.code, natByte straps.lrate.val, flagByte straps.tepHigh]
      ++ wordBytes s.timeBase
  | .condition c => [natByte c.val, flagByte s.conds[c].latch, s.conds[c].count]
  | .plan n => n.encode
  | .settled e tag source o down =>
    [natByte e.val, tag, source.code, outcomeByte o false down, flagByte down]
  | .injectSent e id length => natByte e.val :: halfBytes id ++ natHalf length
  | .assemblyTimeout e id received =>
    [0, natByte e.val] ++ presentHalf (some id) ++ natHalf 0 ++ natHalf received ++ [0]
  | .targetChanged e queued contexts =>
    [1, natByte e.val] ++ presentHalf none ++ natHalf 0 ++ natHalf contexts ++ [natByte queued]
  | .frameCut e id length sent =>
    [2, natByte e.val] ++ presentHalf (some id) ++ natHalf length ++ natHalf sent ++ [0]
  | .overflow lost first => lost :: wordBytes first

/-- A notice as a message: its kind code, tag 0, number, time stamp and body (R183). -/
def Notice.message (s : State) (n : Notice) : Message :=
  { kind := n.body.kind
    tag := 0
    payload := halfBytes n.number ++ wordBytes n.time ++ n.body.encode s }

/-- A reply as a message: its status code and result fields (R156, R179). -/
def Reply.message (r : Reply) : Message :=
  { kind := r.kind, tag := r.tag, payload := r.status.code :: r.result }

/-! ### The envelope and the check value (R155, R185) -/

/-- Take one data bit into the check value: shift left, and combine with 1021H when the bit shifted
out differs from the data bit (R155). -/
def checkBit (v : Half) (bit : Bool) : Half :=
  if v.getLsbD 15 = bit then v <<< 1 else (v <<< 1) ^^^ 0x1021

/-- Take one byte into the check value, most significant bit first (R155). -/
def checkByte (v : Half) (b : Byte) : Half :=
  [7, 6, 5, 4, 3, 2, 1, 0].foldl (fun w i => checkBit w (b.getLsbD i)) v

/-- The check value over a list of bytes, from FFFFH (R155). -/
def checkValue (bs : List Byte) : Half := bs.foldl checkByte 0xFFFF

/-- LEN of a message: the number of its body bytes (section 9.2). -/
def Message.len (m : Message) : Byte := natByte (m.payload.length + 2)

/-- The bytes of a message on the line (R185). -/
def Message.envelope (m : Message) : List Byte :=
  let covered := m.len :: m.kind :: m.tag :: m.payload
  0xD1 :: covered ++ halfBytes (checkValue covered)

/-- Bits per second for the LRATE value in force (R154). -/
def bitRate (lrate : Fin 4) : Nat :=
  if lrate = 0 then 57600 else if lrate = 1 then 115200 else if lrate = 2 then 460800 else 1000000

/-- Character times a message of LEN body bytes lasts on MTX: LEN + 4 bytes of ten bits, rounded up
to a whole ct (section 9.2; log entry 9). -/
def Message.duration (m : Message) (lrate : Fin 4) : Nat :=
  ((m.payload.length + 6) * 10 * Config.ctPerS + (bitRate lrate - 1)) / bitRate lrate

end Sys2Proof.Machine
end

