-- ==== Sys2Proof/Machine/Flags.lean ====
section
/-! DEFINITION. The status flags of the part: the notice queue with the arbiter that takes from it, the
condition latches with their counts, and the ingress counters (Chapter 8, R166, R20). -/

namespace Sys2Proof.Machine

/-! ### The notice queue (section 8.4) -/

/-- The queue has room for one more notice (R148). -/
def NoticeQueue.hasRoom (q : NoticeQueue) : Bool := decide (q.entries.length < 32)

/-- Offer a notice at time `t`: taken in at the tail with the next number (R148, R149), or lost and
counted (R151). -/
def NoticeQueue.offer (q : NoticeQueue) (t : Word32) (b : NoticeBody) : NoticeQueue :=
  if q.hasRoom then
    { q with entries := q.entries ++ [{ number := q.next, time := t, body := b }], next := q.next + 1 }
  else
    { q with lost := satInc q.lost, firstLoss := some (q.firstLoss.getD t) }

/-- After a departure: at 16 entries with the overflow flag set, OVERFLOW is queued and the loss
record is reset (R152). -/
def NoticeQueue.afterDeparture (q : NoticeQueue) (t : Word32) : NoticeQueue :=
  match q.firstLoss with
  | none => q
  | some first =>
    if q.entries.length = 16 then
      { (q.offer t (.overflow q.lost first)) with lost := 0, firstLoss := none }
    else q

/-! ### The outbound arbiter (R166) -/

/-- MTX starts to send a message. -/
def State.startMessage (s : State) (m : Message) (restart : Bool) : State :=
  s.setLink { s.link with
    mtx := some { message := m, restart := restart, left := m.duration s.straps.lrate } }

/-- The head of the notice queue leaves: the pending mark of a CONDITION notice goes with it (R148),
and OVERFLOW is queued when it is due (R152).  The body was read before (R150). -/
def State.departNotice (s : State) (n : Notice) (rest : List Notice) : State :=
  let t := match n.body with
    | .condition c => s.setCond c { s.conds[c] with pending := false }
    | .hello _ _ => s
    | .plan _ => s
    | .settled _ _ _ _ _ => s
    | .injectSent _ _ _ => s
    | .assemblyTimeout _ _ _ => s
    | .targetChanged _ _ _ => s
    | .frameCut _ _ _ _ => s
    | .overflow _ _ => s
  t.setNotices (({ t.notices with entries := rest }).afterDeparture t.timeBase)

/-- The arbiter: with MTX idle it starts the first waiting reply, or else the oldest notice (R166). -/
def State.arbitrate (s : State) : State :=
  match s.phase, s.link.mtx with
  | .run, none =>
    match s.link.refusals with
    | r :: rest => (s.setLink { s.link with refusals := rest }).startMessage r.message r.restart
    | [] =>
      match s.link.executed with
      | r :: rest => (s.setLink { s.link with executed := rest }).startMessage r.message r.restart
      | [] =>
        match s.notices.entries with
        | n :: rest => (s.departNotice n rest).startMessage (n.message s) false
        | [] => s
  | _, _ => s

/-- A block offers a notice at its event; the time stamp is the time base at that event (R149).  With MTX idle the
arbiter chooses at once, before the reply of a request in execution is placed (R163, R166; log entry 7). -/
def State.notify (s : State) (b : NoticeBody) : State :=
  (s.setNotices (s.notices.offer s.timeBase b)).arbitrate

/-! ### Conditions (section 8.1) -/

/-- The id of SENSE(n) is n. -/
def senseCond (n : SenseId) : CondId := ⟨n.val, by omega⟩

/-- The id of LINE(n) is 4 + n. -/
def lineCond (n : Port) : CondId := ⟨4 + n.val, by omega⟩

/-- The id of GUARD(e) is 20 + e. -/
def guardCond (e : Port) : CondId := ⟨20 + e.val, by omega⟩

def linkCheck : CondId := 36
def linkTrunc : CondId := 37
def linkOverrun : CondId := 38
def grdyFault : CondId := 39

/-- A condition after one occurrence: the latch set, the count one higher unless at 255 (R140). -/
def Condition.occurred (k : Condition) : Condition :=
  { k with latch := true, count := satInc k.count }

/-- One occurrence of condition `c` (R140).  At a clear-to-set transition of a subscribed condition
without a pending mark a CONDITION notice is offered, and the mark is made if the queue takes it
(R141, step 1; R151). -/
def State.occur (s : State) (c : CondId) : State :=
  let k := s.conds[c]
  if !k.latch && k.subscribed && !k.pending then
    (s.setCond c { k.occurred with pending := s.notices.hasRoom }).notify (.condition c)
  else s.setCond c k.occurred

/-! ### Ingress counters (R20) -/

def Counter.index : Counter → Fin 11
  | .framesGood => 0
  | .framesAborted => 1
  | .framesCut => 2
  | .runaways => 3
  | .violations => 4
  | .slips => 5
  | .strayDelimiters => 6
  | .marks => 7
  | .patternGood => 8
  | .patternBad => 9
  | .patternGaps => 10

/-- Increase a counter by one, saturating (R20). -/
def Ingress.bump (g : Ingress) (c : Counter) : Ingress :=
  { g with counters := g.counters.set c.index (satInc g.counters[c.index]) }

end Sys2Proof.Machine
end

