-- ==== Sys2Proof/WellFormed.lean ====
section
/-! DEFINITION. Which commands can reach the block at all.  Operand types carry every other bound
(port, slot, context and sense numbers). -/

namespace Sys2Proof

/-- The greatest payload an envelope carries: LEN is at most 250, two of them kind and tag
(section 9.2). -/
def maxPayload : Nat := 248

/-- A LEN byte the framer accepts: 2 to 250 (R157). -/
def lenInRange (len : Byte) : Bool := decide (2 ≤ len.toNat) && decide (len.toNat ≤ 250)

/-- A command that the line can bring: a received message has at most 248 payload bytes, and the
LEN of a LEN_OUT_OF_RANGE event is outside 2 to 250. -/
def Instr.wellFormed : Instr → Bool
  | .requestArrival _ _ payload => decide (payload.length ≤ maxPayload)
  | .lenOutOfRange len => !lenInRange len
  | .hardwareReset _ _ | .hardwareResetEnd _ | .restartEnd _ | .checkFailure | .gapTimerExpiry
  | .unknownRequestKind | .echo | .status | .restart | .setFraming | .setPort | .portStatus
  | .connect | .mapRead | .guardControl | .planLoad | .planArm | .planFire | .planCancel _
  | .planRead | .planRelease | .groupConfig | .groupStatus | .patternConfig | .injectStart
  | .injectCont | .injectAbort | .poolStatus | .conditionsRead | .conditionsClear | .subscribe
  | .sendComplete | .sdDeassert _ | .sdAssert _ | .sdLossTimerExpiry _
  | .characterReceived _ _ _ | .trackerRead _ | .noiseWindowEnd _ | .trafficTimerExpiry _
  | .drainEnd _ | .deadlineExpiry _ | .joinComplete _ | .editSettle _ | .armExpiry _
  | .groupWaitExpiry _ _ | .holdOffExpiry _ | .waitToRestoreExpiry _ | .grdyLevelChange _
  | .qualificationComplete | .holdExpiry | .faultTimerExpiry | .patternFrameStart
  | .injectFrameStart _ | .injectFrameSent _ | .assemblyTimeout _ | .senseRise _ | .senseFall _
  | .senseQualified _ | .byteReceived _ _ => true

end Sys2Proof
end

