-- ==== Sys2Proof/Machine/LinkUnit.lean ====
section
/-! DEFINITION. The management link interface: reply buffer, intake, executor and receive framer
(Chapter 9), and the frame of one event. -/

namespace Sys2Proof.Machine

/-! ### The reply buffer and the frame of one event -/

/-- Occupied reply entries, the one reserved inside an execution aside (R165). -/
def Link.replies (l : Link) : Nat := l.refusals.length + l.executed.length

/-- An entry of the reply buffer is free (R162). -/
def Link.entryFree (l : Link) : Bool := decide (l.replies < 6)

/-- One event while the part runs: taken when the state offers it (`can`), with the arbiter's choice at its end, for
a reply that it has placed or an MTX that it has left idle (R166; log entries 1 and 7); an event the state does not
offer changes nothing. -/
def State.event (s : State) (can : Bool) (effect : State → State) : State :=
  if decide (s.phase = .run) && can then (effect s).arbitrate else s

/-! ### Intake (R161, R162) -/

/-- The reply's kind byte: the request's with its high bit cleared (R156). -/
def replyKind (kind : Byte) : Byte := kind &&& 0x7F

/-- The first failing check of a request at intake (R161). -/
def Link.intakeRefusal (l : Link) (tag : Byte) : Option Status :=
  if tag = 0 then some .badTag
  else if l.intake.any fun m => decide (m.tag = tag) then some .tagInUse
  else if 4 ≤ l.intake.length then some .busy
  else none

/-- A request refused at intake: its reply takes a free entry ahead of the executed replies, or it is
dropped with one occurrence of LINK_OVERRUN (R162). -/
def State.refuseAtIntake (s : State) (kind tag : Byte) (st : Status) : State :=
  if s.link.entryFree then
    s.setLink { s.link with
      refusals := s.link.refusals
        ++ [{ kind := replyKind kind, tag := tag, status := st, result := [], restart := false }] }
  else s.occur linkOverrun

/-- The arrival of a request at the intake queue (R161). -/
def State.takeIn (s : State) (kind tag : Byte) (payload : List Byte) : State :=
  match s.link.intakeRefusal tag with
  | some st => s.refuseAtIntake kind tag st
  | none =>
    s.setLink { s.link with
      intake := s.link.intake ++ [{ kind := kind, tag := tag, payload := payload }] }

/-! ### The receive framer (R157 to R160) -/

/-- 10 ms in ct (R159). -/
def gapCt : Nat := 10 * Config.ctPerMs

/-- The framer returns to SEEK, its gap timer stopped. -/
def State.framerToSeek (s : State) : State :=
  s.setLink { s.link with framer := .seek, gapTimer := none }

/-- The framer goes on in its message, its gap timer starting afresh (R159). -/
def State.framerTo (s : State) (f : Framer) : State :=
  s.setLink { s.link with framer := f, gapTimer := some gapCt }

/-- A whole message has been received (R158). -/
def State.messageReceived (s : State) (kind tag : Byte) (payload : List Byte) : State :=
  s.framerToSeek.takeIn kind tag payload

/-- A message is discarded with a check failure (R160). -/
def State.messageDiscarded (s : State) : State := s.framerToSeek.occur linkCheck

/-- The bytes of a body handed on: kind, tag and payload (R158).  A body has at least two bytes, for
LEN is at least 2. -/
def State.bodyReceived (s : State) : List Byte → State
  | kind :: tag :: payload => s.messageReceived kind tag payload
  | [_] => s.framerToSeek
  | [] => s.framerToSeek

/-- One byte delivered by the receiver (R157, R158, R160). -/
def State.takeByte (s : State) (b : Byte) (framingError : Bool) : State :=
  match s.link.framer with
  | .seek => if b = 0xD1 ∧ framingError = false then s.framerTo .length else s
  | .length =>
    if framingError then s.messageDiscarded
    else if lenInRange b then s.framerTo (.body b.toNat [] (checkByte 0xFFFF b))
    else s.framerToSeek
  | .body len got check =>
    if framingError then s.messageDiscarded
    else if got.length + 1 = len then s.framerTo (.checkHigh (got ++ [b]) (checkByte check b))
    else s.framerTo (.body len (got ++ [b]) (checkByte check b))
  | .checkHigh got check =>
    if framingError then s.messageDiscarded else s.framerTo (.checkLow got check b)
  | .checkLow got check hi =>
    if framingError then s.messageDiscarded
    else if readHalf hi b = check then s.bodyReceived got
    else s.messageDiscarded

/-- The framer listens to MRX: not while restart pending is set (R169). -/
def State.listening (s : State) : Bool := !s.link.restartPending

/-! ### The executor (R163, R164) -/

/-- What a request's execution answers: status and result fields (R156, R179), and whether it is the
reply to RESTART. -/
structure Answer where
  status : Status
  result : List Byte
  restart : Bool
deriving DecidableEq, Repr

def Answer.ok (result : List Byte) : Answer := { status := .ok, result := result, restart := false }

def Answer.refuse (st : Status) : Answer := { status := st, result := [], restart := false }

/-- The head of the intake queue, when the executor can take it (R163). -/
def State.executorHead (s : State) : Option Message :=
  if s.link.entryFree && !s.link.restartPending then s.link.intake.head? else none

/-- The reply of an executed request joins the tail of the executed replies (R163). -/
def State.placeReply (s : State) (m : Message) (a : Answer) : State :=
  s.setLink { s.link with
    executed := s.link.executed
      ++ [{ kind := replyKind m.kind, tag := m.tag, status := a.status, result := a.result
            restart := a.restart }] }

/-- Take the head of the intake queue, validate it and carry it out, and place its reply: one event
(R163). -/
def State.runRequest (s : State) (m : Message) (body : Message → State → Answer × State) : State :=
  let r := body m (s.setLink { s.link with intake := s.link.intake.tail })
  r.2.placeReply m r.1

/-- The executor's event for the requests whose kind `accepts` (R163). -/
def State.execute (s : State) (accepts : Byte → Bool) (body : Message → State → Answer × State) :
    State :=
  match s.executorHead with
  | none => s
  | some m => s.event (accepts m.kind) fun t => t.runRequest m body

/-- The twenty-five request kinds (R173). -/
def requestKinds : List Byte :=
  [0x01, 0x02, 0x03, 0x10, 0x11, 0x12, 0x20, 0x21, 0x22, 0x30, 0x31, 0x32, 0x33, 0x34, 0x35, 0x40,
   0x41, 0x50, 0x60, 0x61, 0x62, 0x63, 0x70, 0x71, 0x72]

end Sys2Proof.Machine
end

