-- ==== Sys2Proof/Machine/GroupIf.lean ====
section
/-! DEFINITION. The group interface: drive, qualification, hold, ready condition and wiring faults
(Chapter 5). -/

namespace Sys2Proof.Machine

/-- The drive of GRDY, `true` LOW (R98). -/
def Membership.driveLow : Membership → Bool
  | .unset => true
  | .nonMember => false
  | .member .lowIdle => true
  | .member .lowWait => true
  | .member (.released _) => false
  | .member (.hold _) => false

def Group.driveLow (g : Group) : Bool := g.membership.driveLow

/-- The qualification of 2 us, the hold of 20 us and the fault filter of 2 us, in ct (R97). -/
def qualificationCt : Nat := 2 * Config.ctPerUs
def holdCt : Nat := 20 * Config.ctPerUs
def faultCt : Nat := 2 * Config.ctPerUs

/-- A move to membership `m` makes the part begin to pull down a line that it reads HIGH. -/
def Group.pullsDown (g : Group) (m : Membership) : Bool := m.driveLow && !g.driveLow && g.high

/-- The membership or member state changes, and with it the drive (R98).  A part that begins to pull down a line
it reads HIGH reads it LOW at once on sound wiring (R97), which ends an episode, and else starts the fault timer
unless an episode is in progress; a drive that becomes RELEASED stops that timer (R108). -/
def Group.moveTo (g : Group) (m : Membership) (sound : Bool) : Group :=
  let pulls := g.pullsDown m
  let falls := pulls && sound
  { g with
    membership := m
    high := g.high && !falls
    faultTimer :=
      if !m.driveLow || falls then none
      else if pulls && !g.episode then some faultCt
      else g.faultTimer
    episode := g.episode && !falls }

/-- The group interface moves to membership `m`.  Whether the wiring is sound is a free value, drawn where the part
begins to pull down a line that it reads HIGH, for nothing else depends on it (R97; log entry 19). -/
def State.groupTo (s : State) (m : Membership) : State :=
  (if s.group.pullsDown m then s.setDraws (s.draws + 1) else s).setGroup
    (s.group.moveTo m (Config.grdySound s.draws))

/-- Enter RELEASED; the qualification starts if the line reads HIGH (R104). -/
def State.groupRelease (s : State) : State :=
  s.groupTo (.member (.released (if s.group.high then some qualificationCt else none)))

/-- The observed level changes (R97): qualification starts or stops in RELEASED (R104), the fault
timer starts or stops with the drive LOW, and a LOW level ends a fault episode (R108). -/
def Group.levelTo (g : Group) (high : Bool) : Group :=
  if g.high = high then g
  else
    { g with
      high := high
      membership := match g.membership with
        | .member (.released _) => .member (.released (if high then some qualificationCt else none))
        | .member .lowIdle => .member .lowIdle
        | .member .lowWait => .member .lowWait
        | .member (.hold left) => .member (.hold left)
        | .unset => .unset
        | .nonMember => .nonMember
      faultTimer := if high && g.driveLow && !g.episode then some faultCt else none
      episode := g.episode && high }

/-- The ready condition of a group plan record, from the present line states (R102). -/
def State.groupReady (s : State) (r : GroupPlan) : Bool :=
  match r.ready with
  | .none => true
  | .sourcesFit => r.sources.all fun p => s.ports[p].line.fit

/-- Enter RELEASED or LOW_WAIT by the ready condition of `r` (R101, R105). -/
def State.groupEnter (s : State) (r : GroupPlan) : State :=
  if s.groupReady r then s.groupRelease else s.groupTo (.member .lowWait)

/-- The group interface is told that a GROUP plan is armed (R101). -/
def State.groupArmed (s : State) (r : GroupPlan) : State :=
  let t := s.setGroup { s.group with plan := some r }
  match s.group.membership with
  | .member .lowIdle => t.groupEnter r
  | .member .lowWait => t
  | .member (.released _) => t
  | .member (.hold _) => t
  | .unset => t
  | .nonMember => t

/-- A line event of an ingress in the set changes the ready condition (R103). -/
def State.groupLineEvent (s : State) : State :=
  match s.group.plan with
  | none => s
  | some r =>
    match s.group.membership with
    | .member .lowWait => if s.groupReady r then s.groupRelease else s
    | .member (.released _) => if s.groupReady r then s else s.groupTo (.member .lowWait)
    | .member .lowIdle => s
    | .member (.hold _) => s
    | .unset => s
    | .nonMember => s

/-- Line events of `p` reach the ready condition of the record: SOURCES_FIT with `p` in the set
(R102). -/
def Group.watches (g : Group) (p : Port) : Bool :=
  match g.plan with
  | none => false
  | some r => decide (r.ready = .sourcesFit) && r.sources.contains p

/-- The part's own side of a group fire (R104, steps 1 to 3): the epoch one higher, the record
APPLYING, and HOLD. -/
def Group.fire (g : Group) : Group :=
  { (g.moveTo (.member (.hold holdCt)) false) with
    epoch := g.epoch + 1
    plan := g.plan.map fun r => { r with applying := true } }

/-- A qualification is running. -/
def Group.qualifying (g : Group) : Bool :=
  match g.membership with
  | .member (.released (some _)) => true
  | .member (.released none) => false
  | .member .lowIdle => false
  | .member .lowWait => false
  | .member (.hold _) => false
  | .unset => false
  | .nonMember => false

/-- The group interface is told that the ARMED GROUP plan expired or was cancelled (R106, R107): the
record is removed, and LOW_WAIT or RELEASED becomes LOW_IDLE. -/
def State.groupPlanGone (s : State) : State :=
  let t := s.setGroup { s.group with plan := none }
  match s.group.membership with
  | .member .lowWait => t.groupTo (.member .lowIdle)
  | .member (.released _) => t.groupTo (.member .lowIdle)
  | .member .lowIdle => t
  | .member (.hold _) => t
  | .unset => t
  | .nonMember => t

/-- The notification of an expiry or cancel, after a qualification that was taken first at the group
interface when `qualifiedFirst` says so (R106, third outcome; log entry 13). -/
def State.groupToldGone (s : State) (qualifiedFirst : Bool) : State :=
  if qualifiedFirst && s.group.qualifying then (s.setGroup s.group.fire).groupPlanGone else s.groupPlanGone

/-- The hold timer expires (R105): RELEASED or LOW_WAIT for a plan armed during the hold, else
LOW_IDLE. -/
def State.groupHoldEnds (s : State) : State :=
  match s.group.plan with
  | none => s.groupTo (.member .lowIdle)
  | some r => if r.applying then s.groupTo (.member .lowIdle) else s.groupEnter r

end Sys2Proof.Machine
end

