-- ==== Sys2Proof/Machine/Inject.lean ====
section
/-! DEFINITION. The injection buffer: space, frame ids, eligibility, discards and cuts (Chapter 7). -/

namespace Sys2Proof.Machine

/-- The blocks a frame of `n` bytes holds: ceil(n / 64) (section 7.1). -/
def blocksFor (n : Nat) : Nat := (n + 63) / 64

def Frame.blocks (f : Frame) : Nat := blocksFor f.bytes.length

def Context.blocks (c : Context) : Nat := blocksFor c.total

/-- The frame ids held by live descriptors: QUEUED, SENDING or reserved by an OPEN context (R125). -/
def Pool.liveIds (p : Pool) : List Half :=
  (p.views.toList.flatMap fun v => v.queue.map (·.id) ++ (v.sending.map (·.frame.id)).toList)
    ++ p.contexts.toList.flatMap fun c => (c.map (·.id)).toList

/-- The first id from `id` on that is not in `held`, looking at no more than `fuel` further ids. -/
def firstFreeId (held : List Half) : Nat → Half → Half
  | 0, id => id
  | n + 1, id => if held.contains id then firstFreeId held n (id + 1) else id

/-- The next frame id once `id` has been given out: one on, wrapping, passing over held ids (R125).
Thirty-two descriptors hold at most that many ids. -/
def Pool.idAfter (p : Pool) (id : Half) : Half := firstFreeId p.liveIds 32 (id + 1)

/-- Give the space of a frame or context back to the free stock (R124). -/
def Pool.giveBack (p : Pool) (descriptors blocks : Nat) : Pool :=
  { p with
    freeDescriptors := p.freeDescriptors + descriptors
    freeBlocks := p.freeBlocks + blocks }

/-- Take space for a frame of `n` bytes from the free stock (R124). -/
def Pool.take (p : Pool) (n : Nat) : Pool :=
  { p with
    freeDescriptors := p.freeDescriptors - 1
    freeBlocks := p.freeBlocks - blocksFor n }

/-- Condition 1 of R127: on INJECT, with no change in flight but one to INJECT. -/
def Egress.onInject (g : Egress) : Bool :=
  decide (g.current = .inject)
  && (match g.change with
    | none => true
    | some ch => decide (ch.target = .inject))

/-- The plan with this id, and its slot (R70). -/
def State.findPlan (s : State) (id : Byte) : Option (SlotId × Plan) :=
  allSlots.findSome? fun k =>
    match s.plans[k] with
    | some p => if p.id = id then some (k, p) else none
    | none => none

/-- Condition 2 of R127: claimed by a plan whose edit for the egress has source INJECT. -/
def State.claimedForInject (s : State) (e : Port) : Bool :=
  match s.claims[e] with
  | none => false
  | some id =>
    match s.findPlan id with
    | none => false
    | some (_, p) => p.edits.any fun d => decide (d.egress = e) && decide (d.entry.source = .inject)

/-- Egress `e` is eligible for injected frames (R127). -/
def State.eligible (s : State) (e : Port) : Bool := s.egresses[e].onInject || s.claimedForInject e

/-- The OPEN contexts that target `e`. -/
def Pool.contextsFor (p : Pool) (e : Port) : List Context :=
  p.contexts.toList.filterMap fun c => c.filter fun x => decide (x.target = e)

/-- Discard the queued frames and OPEN contexts of `e` (R136); a frame SENDING stays. -/
def Pool.discard (p : Pool) (e : Port) : Pool :=
  let queue := p.views[e].queue
  let open' := p.contextsFor e
  let q := p.setView e { p.views[e] with queue := [] }
  { q with
    contexts := q.contexts.map fun c => c.filter fun x => decide (x.target ≠ e)
    freeDescriptors := q.freeDescriptors + queue.length + open'.length
    freeBlocks := q.freeBlocks + (queue.map Frame.blocks).sum + (open'.map Context.blocks).sum }

/-- The discard with its notice: INJECT_DROPPED, TARGET_CHANGED, when something was removed (R136). -/
def State.injectDiscard (s : State) (e : Port) : State :=
  let queued := s.pool.views[e].queue.length
  let contexts := (s.pool.contextsFor e).length
  let t := s.setPool (s.pool.discard e)
  if queued + contexts = 0 then t else t.notify (.targetChanged e queued contexts)

/-- The view of `e` once the frame it was sending has ended: no frame, gap count 0 (R134). -/
def View.ended (v : View) : View := { v with sending := none, gap := 0 }

/-- The selector cut the frame SENDING on `e` (R137): its space is freed and INJECT_DROPPED, CUT, is
queued with the number of bytes sent. -/
def State.injectCut (s : State) (e : Port) : State :=
  let v := s.pool.views[e]
  match v.sending with
  | none => s
  | some f =>
    (s.setPool ((s.pool.setView e v.ended).giveBack 1 f.frame.blocks)).notify
      (.frameCut e f.frame.id f.frame.bytes.length f.sent)

/-- The SHUT of the frame SENDING on `e` has been sent (R135): its space is freed, and INJECT_SENT is
queued if asked for. -/
def State.injectSent (s : State) (e : Port) : State :=
  let v := s.pool.views[e]
  match v.sending with
  | none => s
  | some f =>
    let t := s.setPool ((s.pool.setView e v.ended).giveBack 1 f.frame.blocks)
    if f.frame.notify then t.notify (.injectSent e f.frame.id f.frame.bytes.length) else t

end Sys2Proof.Machine
end

