-- ==== Sys2Proof/Machine/Selector.lean ====
section
/-! DEFINITION. The egress selectors: taking, settling, cutting, draining and joining (Chapter 2). -/

namespace Sys2Proof.Machine

/-! ### Settling (R42, R48, R54) -/

/-- The guard unit takes the settle event of a switch: recorded as the last switch of the record that
asked, if that record is still in force (R54). -/
def State.guardSettled (s : State) (e : Port) (ident : Nat) (target : Source) (o : Settlement)
    (down : Bool) : State :=
  match s.guards[e] with
  | none => s
  | some g =>
    if g.ident = ident then
      let sel : Selection := if s.egresses[e].entry.source = target then .primary else .standby
      s.setGuard e (some { g with last := some { target := sel, outcome := o, sourceDown := down } })
    else s

/-- Hand the settle event of a change to its requester (R42): a SETTLED notice for a CONNECT with
notify set (R48), the plan controller's event for a plan (R88), the guard record for a switch (R54). -/
def State.settle (s : State) (e : Port) (ch : Change) (o : Settlement) : State :=
  let down := decide (o ≠ .superseded) && s.sourceDown ch.target
  match ch.requester with
  | .connect tag notify => if notify then s.notify (.settled e tag ch.target o down) else s
  | .plan id =>
    s.setEgress e { s.egresses[e] with planSettle := some { id := id, outcome := o, sourceDown := down } }
  | .guard ident => s.guardSettled e ident ch.target o down

/-- The outcome a cut record gives (R38). -/
def CutRecord.outcome : CutRecord → Settlement
  | .none => .clean
  | .forced => .forced
  | .deadline => .deadline

/-! ### Joining and turning off (R36, R38) -/

/-- A joining egress finds its target between frames: STEADY on it, and the change settles (R38).
Otherwise it goes on joining. -/
def State.tryJoin (s : State) (e : Port) : State :=
  let g := s.egresses[e]
  match g.change with
  | none => s
  | some ch =>
    if decide (g.state = .joining) && s.betweenFrames e ch.target then
      (s.setEgress e { g with state := .steady, current := ch.target, change := none }).settle e ch
        ch.cut.outcome
    else s

/-- The character on the line as the egress comes to JOINING under `ch`: one that leaves OFF sends FILL from that
character time on while it joins, or on FILL itself (R32, R120).  Where the join completes at once, the first
character is the target's next one (R32, R38), and none is put before it. -/
def State.lineOnLeaving (s : State) (e : Port) (ch : Change) : Option Character :=
  let g := s.egresses[e]
  if g.state = .off ∧ (ch.target = .fill ∨ s.betweenFrames e ch.target = false) then some .fill else g.line

/-- The egress is OUTSIDE under change `ch` (R36, end of R37): OFF at once when the target is HOLD, else JOINING, and
STEADY at once if the target is between frames.  In which character time it first forwards its new source is log
entry 10 (DESIGN CHOICE). -/
def State.leaveFrame (s : State) (e : Port) (ch : Change) : State :=
  let g := s.egresses[e]
  if ch.target = .hold then
    (s.setEgress e
      { g with state := .off, current := .hold, change := none, inside := false, held := none }).settle e
      ch ch.cut.outcome
  else
    (s.setEgress e
      { g with
        state := .joining, change := some ch, inside := false, held := none
        line := s.lineOnLeaving e ch }).tryJoin e

/-! ### Cutting (R35, R39, R44) -/

/-- The egress sends ABORT in place of its source's next character and leaves the frame under `ch` (R35,
R39). -/
def State.cutLeave (s : State) (e : Port) (ch : Change) : State :=
  (s.setEgress e { s.egresses[e] with line := some .abort, inside := false, held := none }).leaveFrame e ch

/-! ### Taking a change (R33 to R41) -/

/-- A change taken in STEADY or OFF (R34 to R37). -/
def State.takeIdle (s : State) (e : Port) (ch : Change) : State :=
  let g := s.egresses[e]
  if ch.target = g.current then s.settle e ch .clean
  else if g.inside then
    match ch.policy with
    | .force => s.cutLeave e { ch with cut := .forced }
    | .clean => s.setEgress e { g with state := .draining, change := some ch }
  else s.leaveFrame e ch

/-- The SHUT of an injected frame that a draining egress holds back: it stays the INJECT view's, and
INJECT_FRAME_SENT takes it (R135). -/
def Egress.holdsInjectShut (g : Egress) (c : Character) : Bool :=
  decide (g.current = .inject) && isTerminator c

/-- A drain is withdrawn (R41): a character held back is sent. -/
def Egress.resume (g : Egress) : Egress :=
  match g.held with
  | none => g
  | some c =>
    if g.holdsInjectShut c then { g with held := none }
    else { g with held := none, line := some c, inside := positionAfter c g.inside }

/-- A draining egress and its old source's next character: the terminator is held back for the drain's
end, and so is any character once the deadline has run out; each other character is sent and lowers
the deadline remaining by one (R37, R39). -/
def Egress.drainCharacter (g : Egress) (c : Character) : Egress :=
  match g.change with
  | none => g
  | some ch =>
    if g.held.isSome then g
    else if isTerminator c || decide (ch.deadline = some 0) then { g with held := some c }
    else { g with line := some c, change := some { ch with deadline := tickTimer ch.deadline } }

/-- A draining egress whose change is replaced by `ch` under policy CLEAN (R40): the deadline starts
afresh, so a character held back for the old deadline goes on its way; a terminator stays due. -/
def Egress.drainAfresh (g : Egress) (ch : Change) : Egress :=
  let h : Egress := { g with change := some ch }
  match g.held with
  | none => h
  | some c => if g.holdsInjectShut c then h else ({ h with held := none }).drainCharacter c

/-- DATA that the egress held back is on its way once `g` holds nothing back: the INJECT view, whose character
it is, goes on to the next one (R134). -/
def State.putReleased (s : State) (e : Port) (g : Egress) : State :=
  let v := s.pool.views[e]
  let t := s.setEgress e g
  match v.sending, s.egresses[e].held with
  | some f, some (.data _) =>
    if s.egresses[e].current = .inject ∧ g.held = none then
      t.setPool (t.pool.setView e { v with sending := some { f with sent := f.sent + 1 } })
    else t
  | _, _ => t

/-- A change taken in DRAINING, the earlier one having settled SUPERSEDED (R40, R41). -/
def State.takeDraining (s : State) (e : Port) (ch : Change) : State :=
  let g := s.egresses[e]
  if ch.target = g.current then
    (s.putReleased e { g.resume with state := .steady, change := none }).settle e ch .clean
  else
    match ch.policy with
    | .force => s.cutLeave e { ch with cut := .forced }
    | .clean => s.putReleased e (g.drainAfresh ch)

/-- What the selector does under the change it takes, any change in flight having settled (R33 to R41). -/
def State.actOn (s : State) (e : Port) (ch : Change) : State :=
  match s.egresses[e].state with
  | .off => s.takeIdle e ch
  | .steady => s.takeIdle e ch
  | .draining => s.takeDraining e ch
  | .joining => s.leaveFrame e ch

/-- The change cuts the frame in progress as it is taken (R35, R40). -/
def Egress.cutBy (g : Egress) (ch : Change) : Bool :=
  decide (ch.policy = .force) && decide (ch.target ≠ g.current)
  && (match g.state with
    | .off => g.inside
    | .steady => g.inside
    | .draining => true
    | .joining => false)

/-- What the injection buffer does on a change away from INJECT: the discard, and then the cut (R44, R137). -/
def Egress.injectionPart (g : Egress) (e : Port) (ch : Change) : List (State → State) :=
  if g.current = .inject ∧ ch.target ≠ .inject then
    (State.injectDiscard · e) :: if g.cutBy ch then [(State.injectCut · e)] else []
  else []

/-- What the selector does on a change: it settles the one in flight SUPERSEDED (R40), and then acts on the
new one. -/
def Egress.selectorPart (g : Egress) (e : Port) (ch : Change) : List (State → State) :=
  g.change.toList.map (fun old t => State.settle t e old .superseded) ++ [(State.actOn · e ch)]

/-- An egress selector takes a change (R33); what the injection buffer and the selector do comes together
(R153). -/
def State.takeChange (s : State) (e : Port) (ch : Change) : State :=
  s.together [s.egresses[e].injectionPart e ch, s.egresses[e].selectorPart e ch]

/-! ### The end of a drain (R37, R39) -/

/-- The egress sends the old frame's terminator `c`, and the drain ends (R37).  A frame of INJECT that
ends by its own SHUT has been sent (R44, R135), its notice and that of a settle in either order (R153).
DESIGN CHOICE (log entry 10): whether the new source's character of this same character time is forwarded after
the terminator (R37, R120) is left to when that source offers it. -/
def State.endDrain (s : State) (e : Port) (c : Character) : State :=
  let g := s.egresses[e]
  match g.change with
  | none => s
  | some ch =>
    let t := s.setEgress e { g with line := some c, inside := false, held := none }
    if g.current = .inject then t.together [[(State.injectSent · e)], [(State.leaveFrame · e ch)]]
    else t.leaveFrame e ch

/-- The deadline of a drain expires (R39): the frame is cut, and the drain ends.  A frame of INJECT is reported
cut (R44), its notice and that of a settle in either order (R153). -/
def State.expireDeadline (s : State) (e : Port) : State :=
  match s.egresses[e].change with
  | none => s
  | some ch =>
    let cut : Change := { ch with cut := .deadline }
    if s.egresses[e].current = .inject then
      s.together [[(State.injectCut · e)], [(State.cutLeave · e cut)]]
    else s.cutLeave e cut

/-! ### Forwarding (R31, R37, R39) -/

/-- An egress whose current source offers `c`: sent in STEADY (R31), and in DRAINING until the end of
the frame (R37).  OFF and JOINING forward nothing. -/
def Egress.receive (g : Egress) (source : Source) (c : Character) : Egress :=
  if g.current = source then
    match g.state with
    | .steady => { g with line := some c, inside := positionAfter c g.inside }
    | .draining => g.drainCharacter c
    | .off => g
    | .joining => g
  else g

/-- A joining egress whose target is between frames (R38). -/
def State.joinReady (s : State) (e : Port) : Bool :=
  decide (s.egresses[e].state = .joining)
    && s.egresses[e].change.any fun c => s.betweenFrames e c.target

/-- Egress `e` waits for an event of its own before `source` offers its next character: it holds back a character of
it that DRAIN_END or DEADLINE_EXPIRY is to decide on (R37, R39; log entry 24), or it is to join it at this moment
(R38; log entry 33). -/
def State.closes (s : State) (e : Port) (source : Source) : Bool :=
  decide (s.egresses[e].current = source) && s.egresses[e].held.isSome
    || s.joinReady e && s.egresses[e].change.any fun c => decide (c.target = source)

/-- The character time of a source is open for its next character: no egress closes it. -/
def State.sourceOpen (s : State) (source : Source) : Bool := allPorts.all fun e => !s.closes e source

/-- A source offers a character to all sixteen selectors at one moment (R49). -/
def State.offer (s : State) (source : Source) (c : Character) : State :=
  { s with egresses := s.egresses.map fun g => g.receive source c }

end Sys2Proof.Machine
end

