-- ==== Sys2Proof/Machine/GuardUnit.lean ====
section
/-! DEFINITION. The guard unit: grades, switches, the states of a guard, host overrides, and guards
under a plan (Chapter 3). -/

namespace Sys2Proof.Machine

/-- A line state is well for a guard: fit, or fit-with-traffic when the entry requires traffic (R51). -/
def LineState.well (l : LineState) (requireTraffic : Bool) : Bool :=
  if requireTraffic then l.carrying else l.fit

/-- The present grade of the primary of egress `e` (R51). -/
def State.primaryWell (s : State) (e : Port) (f : GuardFields) : Bool :=
  match s.egresses[e].entry.source with
  | .ingress p => s.ports[p].line.well f.requireTraffic
  | .fill => false
  | .pattern => false
  | .inject => false
  | .hold => false

/-- The present grade of the standby (R51). -/
def State.standbyWell (s : State) (f : GuardFields) : Bool :=
  s.ports[f.standby].line.well f.requireTraffic

/-- Put the guard of `e`, if it has one, in state `g`; its identity and last switch are kept. -/
def State.guardTo (s : State) (e : Port) (g : GuardState) : State :=
  s.setGuard e (s.guards[e].map fun r => { r with state := g })

/-- The hold-off of an entry, in ct: steps of 10 ms. -/
def GuardFields.holdOffCt (f : GuardFields) : Nat := f.holdOff * 10 * Config.ctPerMs

/-- The wait-to-restore of an entry, in ct. -/
def Restore.waitCt : Restore → Nat
  | .stay => 0
  | .revert sec => sec * Config.ctPerS

/-- The change a switch to `sel` hands to the selector (R53): the entry's policy, no deadline, asked for by this
guard record. -/
def State.switchChange (s : State) (e : Port) (r : Guard) (f : GuardFields) (sel : Selection) : Change :=
  { target := match sel with
      | .primary => s.egresses[e].entry.source
      | .standby => .ingress f.standby
    policy := s.egresses[e].entry.policy, deadline := none, requester := .guard r.ident, cut := .none }

/-- What a guard does on an event in automatic operation: nothing, a new state, or an automatic switch with its
new state. -/
inductive GuardMove where
  | stay
  | to (next : GuardState)
  | switch (sel : Selection) (next : GuardState)
deriving DecidableEq, Repr

/-- What the blocks do when the guard of `e` makes a move, each block's own in order (R53, R153): the guard takes
its new state, and with it its selection; an automatic switch is one occurrence of GUARD(e), and a change for the
injection buffer and the selector. -/
def State.guardParts (s : State) (e : Port) (m : GuardMove) : List (List (State → State)) :=
  match s.guards[e], s.egresses[e].entry.guard with
  | some r, some f =>
    match m with
    | .stay => []
    | .to next => [[(State.guardTo · e next)]]
    | .switch sel next =>
      let ch := s.switchChange e r f sel
      [[(State.guardTo · e next), (State.occur · (guardCond e))], s.egresses[e].injectionPart e ch,
        s.egresses[e].selectorPart e ch]
  | _, _ => []

/-- The guard of `e` makes a move. -/
def State.guardMoves (s : State) (e : Port) (m : GuardMove) : State := s.together (s.guardParts e m)

/-- A host switch (R53, R63, R64): the guard's state becomes `next`, and the selector takes the change; it latches
no condition. -/
def State.hostSwitch (s : State) (e : Port) (sel : Selection) (next : GuardState) : State :=
  match s.guards[e], s.egresses[e].entry.guard with
  | some r, some f => (s.guardTo e next).takeChange e (s.switchChange e r f sel)
  | _, _ => s

/-- The guard of `e` hands a switch to its selector (R53), automatic or the host's. -/
def State.guardSwitch (s : State) (e : Port) (sel : Selection) (automatic : Bool) (next : GuardState) :
    State :=
  if automatic then s.guardMoves e (.switch sel next) else s.hostSwitch e sel next

/-- The expiry of the hold-off timer (R57): an automatic switch to a well standby, else
PRIMARY_DOWN. -/
def State.holdOffMove (s : State) (f : GuardFields) : GuardMove :=
  if s.standbyWell f then .switch .standby .onStandby else .to .primaryDown

/-- The primary fails: HOLDOFF with a fresh timer, or its expiry at once for a hold-off of 0 (R56, R57). -/
def State.failMove (s : State) (f : GuardFields) : GuardMove :=
  if f.holdOffCt = 0 then s.holdOffMove f else .to (.holdoff f.holdOffCt)

/-- From selection PRIMARY into automatic operation: WATCHING on a well primary, else as when it fails (R65, R67). -/
def State.startMove (s : State) (e : Port) (f : GuardFields) : GuardMove :=
  if s.primaryWell e f then .to .watching else s.failMove f

/-- The standby evaluation of R59. -/
def State.evaluationMove (s : State) (e : Port) (f : GuardFields) : GuardMove :=
  if !s.standbyWell f && s.primaryWell e f then .switch .primary .watching
  else
    match f.restore with
    | .revert _ => if s.primaryWell e f then .to (.restoreWait f.restore.waitCt) else .to .onStandby
    | .stay => .to .onStandby

def State.holdOffExpired (s : State) (e : Port) (f : GuardFields) : State := s.guardMoves e (s.holdOffMove f)

def State.standbyEvaluation (s : State) (e : Port) (f : GuardFields) : State :=
  s.guardMoves e (s.evaluationMove e f)

/-- HOLDOFF with a fresh timer, or WATCHING, by the primary's grade (R55).  A hold-off of 0 is left standing at 0 for
`holdOffIfZero`. -/
def State.guardStart (s : State) (e : Port) (f : GuardFields) : State :=
  s.guardTo e (if s.primaryWell e f then .watching else .holdoff f.holdOffCt)

/-- A hold-off of 0 expires at once (R55). -/
def State.holdOffIfZero (s : State) (e : Port) : State :=
  match s.guards[e], s.egresses[e].entry.guard with
  | some r, some f => if r.state = .holdoff 0 then s.holdOffExpired e f else s
  | _, _ => s

/-- What a guard hears of its two ingresses (R51). -/
inductive GuardEvent where
  | primaryFails
  | primaryRecovers
  | standbyFails
  | standbyRecovers
deriving DecidableEq, Repr

/-- What a guard in state `g` does on an event of its ingresses (R56 to R60; LOCKED, FORCED and SUSPENDED ignore all
of them, R63, R64, R66). -/
def State.eventMove (s : State) (e : Port) (f : GuardFields) (g : GuardState) (ev : GuardEvent) : GuardMove :=
  match g with
  | .watching =>
    match ev with
    | .primaryFails => s.failMove f
    | .primaryRecovers => .stay
    | .standbyFails => .stay
    | .standbyRecovers => .stay
  | .holdoff _ =>
    match ev with
    | .primaryRecovers => .to .watching
    | .primaryFails => .stay
    | .standbyFails => .stay
    | .standbyRecovers => .stay
  | .primaryDown =>
    match ev with
    | .primaryRecovers => .to .watching
    | .standbyRecovers => .switch .standby .onStandby
    | .primaryFails => .stay
    | .standbyFails => .stay
  | .onStandby =>
    match ev with
    | .primaryRecovers => s.evaluationMove e f
    | .standbyFails => if s.primaryWell e f then .switch .primary .watching else .stay
    | .primaryFails => .stay
    | .standbyRecovers => .stay
  | .restoreWait _ =>
    match ev with
    | .primaryFails => .to .onStandby
    | .standbyFails => .switch .primary .watching
    | .primaryRecovers => .stay
    | .standbyRecovers => .stay
  | .locked => .stay
  | .forced => .stay
  | .suspended _ _ => .stay
  | .suspendedFired => .stay

/-- What the blocks do when the guard of `e` takes an event of its ingresses. -/
def State.guardEventParts (s : State) (e : Port) (ev : GuardEvent) : List (List (State → State)) :=
  match s.guards[e], s.egresses[e].entry.guard with
  | some r, some f => s.guardParts e (s.eventMove e f r.state ev)
  | _, _ => []

/-- The guard of `e` takes an event of its ingresses in its present state (R56 to R60). -/
def State.guardEvent (s : State) (e : Port) (ev : GuardEvent) : State := s.together (s.guardEventParts e ev)

/-- The event a change of the line of ingress `p` from `old` to `new` is for the guard of `e`; none
when it does not watch `p` or the grade stays as it was (R51). -/
def State.guardHears (s : State) (e p : Port) (old new : LineState) : Option GuardEvent :=
  match s.guards[e], s.egresses[e].entry.guard with
  | some _, some f =>
    let was := old.well f.requireTraffic
    let is := new.well f.requireTraffic
    if was = is then none
    else if s.egresses[e].entry.source = .ingress p then
      some (if is then .primaryRecovers else .primaryFails)
    else if f.standby = p then some (if is then .standbyRecovers else .standbyFails)
    else none
  | _, _ => none

/-- A new guard record for `e` in state `g`, with a fresh identity, if its entry has a guard; else no
record (R52). -/
def State.newGuard (s : State) (e : Port) (g : GuardState) : State :=
  match s.egresses[e].entry.guard with
  | none => s.setGuard e none
  | some _ =>
    (s.setGuard e (some { ident := s.guardSerial, state := g, last := none })).setSerial
      (s.guardSerial + 1)

/-- Initialisation of the guard of `e` (R55): selection PRIMARY, no override, no last switch, and
WATCHING or HOLDOFF by the primary's grade. -/
def State.guardInit (s : State) (e : Port) : State :=
  match s.guards[e], s.egresses[e].entry.guard with
  | some r, some f => (s.setGuard e (some { r with last := none })).guardStart e f
  | _, _ => s

/-- The override a guard state is (R66). -/
def GuardState.override : GuardState → Override
  | .locked => .locked
  | .forced => .forced
  | .watching => .none
  | .holdoff _ => .none
  | .primaryDown => .none
  | .onStandby => .none
  | .restoreWait _ => .none
  | .suspended _ o => o
  | .suspendedFired => .none

/-- A plan's claim suspends the guard of `e`, which remembers its selection and override (R66). -/
def State.guardSuspend (s : State) (e : Port) : State :=
  match s.guards[e] with
  | none => s
  | some r =>
    match r.state.selection with
    | some sel => s.guardTo e (.suspended sel r.state.override)
    | none => s

/-- What a guard does as the claim that suspended it is released: it resumes from what it remembered (R67). -/
def State.resumeMove (s : State) (e : Port) (f : GuardFields) : GuardState → GuardMove
  | .suspended _ .locked => .to .locked
  | .suspended _ .forced => .to .forced
  | .suspended .primary .none => s.startMove e f
  | .suspended .standby .none => s.evaluationMove e f
  | .watching => .stay
  | .holdoff _ => .stay
  | .primaryDown => .stay
  | .onStandby => .stay
  | .restoreWait _ => .stay
  | .locked => .stay
  | .forced => .stay
  | .suspendedFired => .stay

/-- What the blocks do when the guard of `e` resumes. -/
def State.guardResumeParts (s : State) (e : Port) : List (List (State → State)) :=
  match s.guards[e], s.egresses[e].entry.guard with
  | some r, some f => s.guardParts e (s.resumeMove e f r.state)
  | _, _ => []

/-- A released claim resumes the guard of `e` from what it remembered (R67). -/
def State.guardResume (s : State) (e : Port) : State := s.together (s.guardResumeParts e)

/-- The commands of GUARD_CONTROL (R62). -/
inductive GuardCommand where
  | lock
  | forceStandby
  | clear
deriving DecidableEq, Repr

def GuardCommand.read (b : Byte) : Option GuardCommand :=
  if b = 0 then some .lock else if b = 1 then some .forceStandby else if b = 2 then some .clear else none

/-- LOCK (R63): a host switch to the primary when the selection is STANDBY; then LOCKED. -/
def State.guardLock (s : State) (e : Port) (r : Guard) : State :=
  if r.state = .locked then s
  else if r.state.selection = some .standby then s.guardSwitch e .primary false .locked
  else s.guardTo e .locked

/-- FORCE_STANDBY (R64): a host switch to the standby when the selection is PRIMARY; then FORCED. -/
def State.guardForce (s : State) (e : Port) (r : Guard) : State :=
  if r.state = .forced then s
  else if r.state.selection = some .primary then s.guardSwitch e .standby false .forced
  else s.guardTo e .forced

/-- CLEAR (R65): from LOCKED and FORCED back to automatic operation; else no change. -/
def State.guardClear (s : State) (e : Port) (r : Guard) (f : GuardFields) : State :=
  if r.state = .locked then s.guardMoves e (s.startMove e f)
  else if r.state = .forced then s.standbyEvaluation e f
  else s

end Sys2Proof.Machine
end

