-- ==== Sys2Proof/Machine/PlanUnit.lean ====
section
/-! DEFINITION. The plan controller: arming, firing, settling and ending plans (Chapter 4). -/

namespace Sys2Proof.Machine

/-- A PLAN notice of a plan in slot `k`, its fields that only one event carries absent (R96). -/
def planNotice (k : SlotId) (p : Plan) (ev : PlanEvent) : PlanNotice :=
  { event := ev, id := p.id, slot := k, trigger := p.trigger, firedBy := none, epoch := none
    reason := none, editCount := p.edits.length, clean := 0, forced := 0, deadline := 0, down := 0 }

/-- Fired by OVERRIDE: PLAN_FIRE on a plan with trigger MARK or SENSE (R96). -/
def firedBy (trigger : Trigger) (byRequest : Bool) : FiredBy :=
  match trigger with
  | .mark _ => if byRequest then .override else .trigger
  | .sense _ => if byRequest then .override else .trigger
  | .now => .trigger
  | .fire => .trigger
  | .group _ => .trigger

/-- One edit is handed to its egress at the fire (R86): the entry is replaced whole and the old guard
record discarded, a new guard starts SUSPENDED (R68), and the selector takes the plan's change. -/
def State.handEdit (s : State) (id : Byte) (drainDeadline : Nat) (d : Edit) : State :=
  let t := s.setEgress d.egress { s.egresses[d.egress] with entry := d.entry }
  (t.newGuard d.egress .suspendedFired).takeChange d.egress
    { target := d.entry.source
      policy := d.entry.policy
      deadline := if drainDeadline = 0 then none else some drainDeadline
      requester := .plan id
      cut := .none }

/-- The plan record at its fire (R85, steps 1 to 3). -/
def Plan.fired (p : Plan) (time : Word32) (epoch : Option Half) : Plan :=
  { p with state := .applying, timer := none, fireTime := some time, epochAtFire := epoch }

/-- The fire of the plan in slot `k`, only while it is ARMED (R85): the record, the FIRED notice if
asked for, then each edit in list order. -/
def State.firePlan (s : State) (k : SlotId) (epoch : Option Half) (byRequest : Bool) : State :=
  match s.plans[k] with
  | none => s
  | some p =>
    if p.state = .armed then
      let t := s.setPlan k (some (p.fired s.timeBase epoch))
      let u :=
        if p.fireNotice then
          t.notify (.plan { planNotice k p .fired with
            firedBy := some (firedBy p.trigger byRequest), epoch := epoch })
        else t
      p.edits.foldl (fun v d => v.handEdit p.id p.drainDeadline d) u
    else s

/-- The slots whose plan is ARMED with trigger `g`. -/
def State.waitingOn (s : State) (g : Trigger) : List SlotId :=
  allSlots.filter fun k =>
    match s.plans[k] with
    | none => false
    | some p => decide (p.state = .armed) && decide (p.trigger = g)

/-- One trigger event fires every plan ARMED with that trigger, one after the other in either order
(R81, R82, R83). -/
def State.fireWaiting (s : State) (g : Trigger) : State :=
  s.inSomeOrder (s.waitingOn g) fun k t => t.firePlan k none false

/-- The slot of the ARMED GROUP plan, if there is one (R79). -/
def State.armedGroupSlot (s : State) : Option SlotId :=
  allSlots.find? fun k =>
    match s.plans[k] with
    | none => false
    | some p => decide (p.state = .armed) && p.trigger.isGroup

/-- The plan controller takes a group fire (R79, R104); without an ARMED GROUP plan it changes no plan
record. -/
def State.takeGroupFire (s : State) : State :=
  match s.armedGroupSlot with
  | none => s
  | some k => s.firePlan k (some s.group.epoch) false

/-- Release the claims on the egresses of a list (R74). -/
def State.releaseClaims (s : State) (es : List Port) : State :=
  es.foldl (fun t e => t.setClaim e none) s

/-- Whether the guard of `e` is suspended and remembers what to resume (R67). -/
def State.guardSuspended (s : State) (e : Port) : Bool :=
  match s.guards[e] with
  | none => false
  | some r =>
    match r.state with
    | .suspended _ _ => true
    | .watching => false
    | .holdoff _ => false
    | .primaryDown => false
    | .onStandby => false
    | .restoreWait _ => false
    | .locked => false
    | .forced => false
    | .suspendedFired => false

/-- Something of `e` would be removed by a discard (R136). -/
def Pool.holdsFor (p : Pool) (e : Port) : Bool :=
  !p.views[e].queue.isEmpty || !(p.contextsFor e).isEmpty

/-- The edits with source INJECT whose egress is not on INJECT and has something to lose (R90 step 4,
R136). -/
def State.strandedInject (s : State) (p : Plan) : List Port :=
  (p.edits.map (·.egress)).filter fun e =>
    (p.edits.any fun d => decide (d.egress = e) && decide (d.entry.source = .inject))
    && !s.egresses[e].onInject && s.pool.holdsFor e

/-- The suspended guards of a list of egresses resume (R90, step 3): what they and the blocks they move do comes
together, the notices in any order that keeps each block's own (R153). -/
def State.resumeGuards (s : State) (es : List Port) : State :=
  s.together ((allPorts.filter fun e => es.contains e && s.guardSuspended e).flatMap s.guardResumeParts)

/-- The stranded INJECT frames of a plan's edits are discarded (R90, step 4). -/
def State.dropStranded (s : State) (p : Plan) : State :=
  s.inSomeOrder (s.strandedInject p) fun e t => t.injectDiscard e

/-- Steps 2 to 5 of R90, for an expiry and for a cancel from ARMED (R91): claims released, guards
resumed, stranded INJECT frames discarded, the group interface told. -/
def State.letGo (s : State) (p : Plan) (qualifiedFirst : Bool) : State :=
  let es := p.edits.map (·.egress)
  let w := ((s.releaseClaims es).resumeGuards es).dropStranded p
  if p.trigger.isGroup then w.groupToldGone qualifiedFirst else w

/-- An ARMED plan expires (R90). -/
def State.expirePlan (s : State) (k : SlotId) (p : Plan) (reason : ExpiryReason)
    (qualifiedFirst : Bool) : State :=
  let expired := { p with state := .expired, timer := none, reason := some reason }
  ((s.setPlan k (some expired)).letGo p qualifiedFirst).notify
    (.plan { planNotice k p .expired with reason := some reason })

/-- The plan controller is about to hold `e` for plan `id` (R76, step 1): the claim, and the guard
suspended. -/
def State.claim (s : State) (id : Byte) (e : Port) : State := (s.setClaim e (some id)).guardSuspend e

/-- The ingresses a plan's edits name as sources, each once (R101, R102). -/
def Plan.ingressSources (p : Plan) : List Port :=
  allPorts.filter fun q => p.edits.any fun d => decide (d.entry.source = .ingress q)

/-- The ready condition a GROUP plan names (R102). -/
def Trigger.ready : Trigger → Ready
  | .group r => r
  | .now => .none
  | .fire => .none
  | .mark _ => .none
  | .sense _ => .none

/-- The timer an arming starts: the group wait for GROUP, the arm expiry when it is not 0 (R76). -/
def Plan.armTimer (p : Plan) : Option Nat :=
  if p.trigger.isGroup then some (p.groupWait * Config.ctPerMs)
  else if p.armExpiry = 0 then none
  else some (p.armExpiry * Config.ctPerMs)

/-- A claim on every edited egress (R76, step 1). -/
def State.takeClaims (s : State) (p : Plan) : State :=
  (p.edits.map (·.egress)).foldl (fun t e => t.claim p.id e) s

/-- The group interface is told of an armed GROUP plan (R76, step 4; R101). -/
def State.tellArmed (s : State) (p : Plan) : State :=
  if p.trigger.isGroup then
    s.groupArmed { id := p.id, applying := false, ready := p.trigger.ready, sources := p.ingressSources }
  else s

/-- Arm the plan in slot `k` (R76, steps 1 to 5). -/
def State.armPlan (s : State) (k : SlotId) (p : Plan) : State :=
  let t := (s.takeClaims p).setPlan k (some { p with state := .armed, timer := p.armTimer })
  let w := t.tellArmed p
  if p.trigger = .now then w.firePlan k none false else w

/-- Record an edit's outcome (R88, step 1); a field once filled is not changed (R71). -/
def recordOutcome (edits : List Edit) (e : Port) (o : EditOutcome) : List Edit :=
  edits.map fun d => if d.egress = e then { d with outcome := some (d.outcome.getD o) } else d

/-- A plan whose last edit has settled completes (R89). -/
def State.completePlan (s : State) (k : SlotId) (p : Plan) : State :=
  let t := s.setPlan k (some { p with state := .done, doneTime := some s.timeBase })
  let u := if p.trigger.isGroup then t.setGroup { t.group with plan := none } else t
  u.notify (.plan { planNotice k p .done with
    epoch := p.epochAtFire
    clean := countOutcomes p.edits .clean
    forced := countOutcomes p.edits .forced
    deadline := countOutcomes p.edits .deadline
    down := countDown p.edits })

/-- The edit of `e` has settled, its plan's record being `q` (R88, steps 1 to 3): the claim is released and
the guard initialised; a hold-off of 0 expires at once (log entry 12). -/
def State.editSettled (s : State) (k : SlotId) (q : Plan) (e : Port) : State :=
  (((s.setPlan k (some q)).setClaim e none).guardInit e).holdOffIfZero e

/-- The record of plan `p` once the edit of `e` has its outcome (R88, step 1). -/
def Plan.withOutcome (p : Plan) (e : Port) (ev : PlanSettle) : Plan :=
  { p with edits := recordOutcome p.edits e { outcome := ev.outcome, sourceDown := ev.sourceDown } }

/-- The plan controller takes the settle event of an edit of egress `e` (R88). -/
def State.takeEditSettle (s : State) (e : Port) (ev : PlanSettle) : State :=
  let t := s.setEgress e { s.egresses[e] with planSettle := none }
  match t.findPlan ev.id with
  | none => t
  | some (k, p) =>
    if p.state = .applying then
      let q := p.withOutcome e ev
      let v := t.editSettled k q e
      if q.edits.all (·.outcome.isSome) then v.completePlan k q else v
    else t

end Sys2Proof.Machine
end

