-- ==== Sys2Proof/Machine/ConditionCommands.lean ====
section
/-! DEFINITION. The commands of the condition unit and its sense inputs (Chapter 8). -/

namespace Sys2Proof.Machine

/-! ### CONDITIONS_READ (R144) -/

/-- The four bytes of a condition. -/
def Condition.encode (k : Condition) : List Byte :=
  [flagByte k.latch, k.count, flagByte k.subscribed, flagByte k.pending]

/-- The two bytes of a sense input. -/
def Sense.encode (k : Sense) : List Byte := [flagByte k.level, k.qualifier.code]

def conditionsReadRequest (m : Message) (s : State) : Answer × State :=
  match m.payload with
  | [] =>
    (Answer.ok (s.conds.toList.flatMap Condition.encode ++ s.senses.toList.flatMap Sense.encode), s)
  | _ :: _ => (Answer.refuse .badLength, s)

def execConditionsRead (s : State) : Result :=
  .next (s.execute (fun k => decide (k = 0x70)) conditionsReadRequest)

/-! ### CONDITIONS_CLEAR (R145, R146) -/

/-- A qualifier whose SENSE condition is cleared (R142): HIGH starts afresh at 200 ns. -/
def Sense.cleared (k : Sense) : Sense :=
  match k.qualifier with
  | .high => { k with qualifier := .qualifying 20 }
  | .low => k
  | .qualifying _ => k

/-- The conditions a CONDITIONS_CLEAR names, each once and in order of id; none when R145 refuses it. -/
def namedConds (scope : Byte) (ids : List Byte) : Option (List CondId) :=
  if scope = 0 then (if ids.isEmpty then some allConds else none)
  else if scope = 1 then
    (if ids.isEmpty ∨ ids.any (fun i => decide (40 ≤ i.toNat)) then none
     else some (allConds.filter fun c => ids.contains (natByte c.val)))
  else none

/-- The named conditions cleared at one moment (R146). -/
def State.clearConds (s : State) (cs : List CondId) : State :=
  { s with
    conds := Vector.ofFn fun c =>
      if cs.contains c then { s.conds[c] with latch := false, count := 0 } else s.conds[c]
    senses := Vector.ofFn fun n =>
      if cs.contains (senseCond n) then s.senses[n].cleared else s.senses[n] }

/-- The report of one cleared condition: its id, and latch and count from just before (R146). -/
def State.clearReport (s : State) (c : CondId) : List Byte :=
  [natByte c.val, flagByte s.conds[c].latch, s.conds[c].count]

/-- An id list of this count fits the payload: at most 40 ids (R177). -/
def idListFits (count : Byte) (ids : List Byte) : Bool :=
  decide (count.toNat ≤ 40) && decide (ids.length = count.toNat)

def conditionsClearRequest (m : Message) (s : State) : Answer × State :=
  match m.payload with
  | scope :: count :: ids =>
    if idListFits count ids then
      match namedConds scope ids with
      | none => (Answer.refuse .badField, s)
      | some cs => (Answer.ok (natByte cs.length :: cs.flatMap s.clearReport), s.clearConds cs)
    else (Answer.refuse .badLength, s)
  | _ => (Answer.refuse .badLength, s)

def execConditionsClear (s : State) : Result :=
  .next (s.execute (fun k => decide (k = 0x71)) conditionsClearRequest)

/-! ### SUBSCRIBE (R147) -/

/-- The whole set of subscriptions replaced. -/
def State.subscribeTo (s : State) (ids : List Byte) : State :=
  { s with
    conds := Vector.ofFn fun c => { s.conds[c] with subscribed := ids.contains (natByte c.val) } }

def subscribeRequest (m : Message) (s : State) : Answer × State :=
  match m.payload with
  | count :: ids =>
    if idListFits count ids then
      if ids.any fun i => decide (40 ≤ i.toNat) then (Answer.refuse .badField, s)
      else
        let on := (allConds.filter fun c => ids.contains (natByte c.val)).map fun c => natByte c.val
        (Answer.ok (natByte on.length :: on), s.subscribeTo ids)
    else (Answer.refuse .badLength, s)
  | [] => (Answer.refuse .badLength, s)

def execSubscribe (s : State) : Result :=
  .next (s.execute (fun k => decide (k = 0x72)) subscribeRequest)

/-! ### Sense inputs (R142) -/

/-- A rise at the qualifier: LOW starts to qualify, 200 ns being 20 ct. -/
def Sense.rise (k : Sense) : Sense :=
  { level := true
    qualifier := match k.qualifier with
      | .low => .qualifying 20
      | .qualifying left => .qualifying left
      | .high => .high }

/-- A fall at the qualifier. -/
def Sense.fall : Sense := { level := false, qualifier := .low }

/-- Note the level of a SENSE pin; during a reset no qualifier runs (R143; log entry 29). -/
def State.trackSense (s : State) (n : SenseId) (level : Bool) : State :=
  s.setSense n { s.senses[n] with level := level }

/-- SENSE_RISE (R142). -/
def execSenseRise (n : SenseId) (s : State) : Result :=
  match s.phase with
  | .run => .next (s.event true fun t => t.setSense n t.senses[n].rise)
  | .hardwareReset _ => .next (s.trackSense n true)
  | .restart _ => .next (s.trackSense n true)

/-- SENSE_FALL (R142). -/
def execSenseFall (n : SenseId) (s : State) : Result :=
  match s.phase with
  | .run => .next (s.event true fun t => t.setSense n Sense.fall)
  | .hardwareReset _ => .next (s.trackSense n false)
  | .restart _ => .next (s.trackSense n false)

/-- The 200 ns timer of a qualifier runs. -/
def Qualifier.running : Qualifier → Bool
  | .qualifying _ => true
  | .low => false
  | .high => false

/-- One occurrence of SENSE(n) from its qualifier (R142): a clear-to-set transition fires the plans that
wait on it, after the CONDITION notice (R141). -/
def State.qualifySense (s : State) (n : SenseId) : State :=
  let t := (s.setSense n { s.senses[n] with qualifier := .high }).occur (senseCond n)
  if s.conds[senseCond n].latch then t else t.fireWaiting (.sense n)

/-- SENSE_QUALIFIED (R142). -/
def execSenseQualified (n : SenseId) (s : State) : Result :=
  .next (s.event s.senses[n].qualifier.running fun t => t.qualifySense n)

end Sys2Proof.Machine
end

