-- ==== Sys2Proof/Machine/PlanCommands.lean ====
section
/-! DEFINITION. The commands of the plan controller (Chapter 4). -/

namespace Sys2Proof.Machine

/-! ### PLAN_LOAD (R72, R73) -/

/-- The timers loaded suit the trigger (R72): GROUP has a group wait and no arm expiry, and any other
trigger no group wait. -/
def Trigger.timersSuit (t : Trigger) (armExpiry groupWait : Nat) : Bool :=
  if t.isGroup then decide (armExpiry = 0) && decide (groupWait ≠ 0) else decide (groupWait = 0)

/-- The plan a PLAN_LOAD payload describes, once its length agrees with its edit count; none when a
check of R72 fails. -/
def readPlan (id kind index : Byte) (armExpiry groupWait drainDeadline : Nat) (fireNotice count : Byte)
    (edits : List Byte) : Option Plan :=
  match Trigger.read kind index, readFlag fireNotice, decodeEdits edits with
  | some trigger, some notice, some es =>
    if id = 0 ∨ count = 0 ∨ 16 < count.toNat ∨ trigger.timersSuit armExpiry groupWait = false then none
    else
      some
        { id := id, state := .loaded, trigger := trigger, armExpiry := armExpiry, groupWait := groupWait
          drainDeadline := drainDeadline, fireNotice := notice, edits := es, timer := none
          fireTime := none, doneTime := none, reason := none, epochAtFire := none }
  | _, _, _ => none

/-- The lowest-numbered FREE slot (R73). -/
def State.freeSlot (s : State) : Option SlotId := allSlots.find? fun k => s.plans[k].isNone

/-- The checks of R73 in order, and the load. -/
def State.loadPlan (s : State) (p : Plan) : Answer × State :=
  if ¬ (p.edits.map (·.egress)).Nodup then (Answer.refuse .dupEgress, s)
  else if (s.findPlan p.id).isSome then (Answer.refuse .idInUse, s)
  else
    match s.freeSlot with
    | none => (Answer.refuse .noSlot, s)
    | some k => (Answer.ok [natByte k.val], s.setPlan k (some p))

def planLoadRequest (m : Message) (s : State) : Answer × State :=
  match m.payload with
  | id :: kind :: index :: ah :: al :: gh :: gl :: dh :: dl :: notice :: count :: edits =>
    if edits.length ≠ 7 * count.toNat then (Answer.refuse .badLength, s)
    else
      match readPlan id kind index (readHalf ah al).toNat (readHalf gh gl).toNat (readHalf dh dl).toNat
        notice count edits with
      | none => (Answer.refuse .badField, s)
      | some p => s.loadPlan p
  | _ => (Answer.refuse .badLength, s)

def execPlanLoad (s : State) : Result :=
  .next (s.execute (fun k => decide (k = 0x30)) planLoadRequest)

/-! ### Requests that name one plan -/

/-- A request of one byte, the plan id 1 to 255, for the plan in a slot that carries it: BAD_FIELD for 0,
NO_PLAN when no slot does (R75, R91, R92, R95). -/
def planRequest (act : SlotId → Plan → State → Answer × State) (m : Message) (s : State) :
    Answer × State :=
  match m.payload with
  | [id] =>
    if id = 0 then (Answer.refuse .badField, s)
    else
      match s.findPlan id with
      | none => (Answer.refuse .noPlan, s)
      | some (k, p) => act k p s
  | _ => (Answer.refuse .badLength, s)

/-- The membership is MEMBER. -/
def Membership.isMember : Membership → Bool
  | .member _ => true
  | .unset => false
  | .nonMember => false

/-- A plan with trigger GROUP is ARMED or APPLYING (R75, R100). -/
def State.groupBusy (s : State) : Bool :=
  s.plans.toList.any fun p =>
    p.any fun q => q.trigger.isGroup && (decide (q.state = .armed) || decide (q.state = .applying))

/-- The lowest-numbered edited egress that is claimed, with the plan that holds it (R75). -/
def State.conflict (s : State) (p : Plan) : Option (Port × Byte) :=
  allPorts.findSome? fun e =>
    if (p.edits.map (·.egress)).contains e then (s.claims[e]).map fun id => (e, id) else none

/-- The first failing check of an arming (R75, 2 to 5). -/
def State.armRefusal (s : State) (p : Plan) : Option Answer :=
  if p.state ≠ .loaded then some (Answer.refuse .wrongState)
  else if p.trigger.isGroup && !s.group.membership.isMember then some (Answer.refuse .notMember)
  else if p.trigger.isGroup && s.groupBusy then some (Answer.refuse .groupBusy)
  else
    match s.conflict p with
    | some (e, id) => some { status := .claimConflict, result := [natByte e.val, id], restart := false }
    | none => none

/-- The state code of the plan in slot `k`, as the replies of PLAN_ARM and PLAN_FIRE give it. -/
def State.planCode (s : State) (k : SlotId) : Byte := slotCode s.plans[k]

/-- PLAN_ARM (R75, R76). -/
def armRequest (k : SlotId) (p : Plan) (s : State) : Answer × State :=
  match s.armRefusal p with
  | some a => (a, s)
  | none => let t := s.armPlan k p; (Answer.ok [t.planCode k], t)

def execPlanArm (s : State) : Result :=
  .next (s.execute (fun k => decide (k = 0x31)) (planRequest armRequest))

/-- PLAN_FIRE (R92). -/
def fireRequest (k : SlotId) (p : Plan) (s : State) : Answer × State :=
  if p.trigger.isGroup then (Answer.refuse .notAllowed, s)
  else if p.state ≠ .armed then (Answer.refuse .wrongState, s)
  else let t := s.firePlan k none true; (Answer.ok [t.planCode k], t)

def execPlanFire (s : State) : Result :=
  .next (s.execute (fun k => decide (k = 0x32)) (planRequest fireRequest))

/-- PLAN_CANCEL (R91, R107). -/
def cancelRequest (qualifiedFirst : Bool) (k : SlotId) (p : Plan) (s : State) : Answer × State :=
  let t := s.setPlan k (some { p with state := .cancelled, timer := none })
  match p.state with
  | .loaded => (Answer.ok [], t)
  | .armed => (Answer.ok [], t.letGo p qualifiedFirst)
  | .applying => (Answer.refuse .tooLate, s)
  | .done => (Answer.refuse .wrongState, s)
  | .expired => (Answer.refuse .wrongState, s)
  | .cancelled => (Answer.refuse .wrongState, s)

def execPlanCancel (qualifiedFirst : Bool) (s : State) : Result :=
  .next (s.execute (fun k => decide (k = 0x33)) (planRequest (cancelRequest qualifiedFirst)))

/-- PLAN_RELEASE (R95). -/
def releaseRequest (k : SlotId) (p : Plan) (s : State) : Answer × State :=
  match p.state with
  | .armed => (Answer.refuse .wrongState, s)
  | .applying => (Answer.refuse .wrongState, s)
  | .loaded => (Answer.ok [natByte k.val], s.setPlan k none)
  | .done => (Answer.ok [natByte k.val], s.setPlan k none)
  | .expired => (Answer.ok [natByte k.val], s.setPlan k none)
  | .cancelled => (Answer.ok [natByte k.val], s.setPlan k none)

def execPlanRelease (s : State) : Result :=
  .next (s.execute (fun k => decide (k = 0x35)) (planRequest releaseRequest))

/-! ### PLAN_READ (R93, R94, R181) -/

/-- The result for one plan (R181). -/
def Plan.encode (k : SlotId) (p : Plan) : List Byte :=
  [natByte k.val, p.id, p.state.code, p.trigger.code, p.trigger.index]
    ++ natHalf (if p.trigger.isGroup then p.groupWait else p.armExpiry)
    ++ presentHalf (p.timer.map fun t => BitVec.ofNat 16 (ctToMsUp t))
    ++ natHalf p.drainDeadline
    ++ [flagByte p.fireNotice]
    ++ presentWord p.fireTime
    ++ presentWord p.doneTime
    ++ [(p.reason.map ExpiryReason.code).getD absent]
    ++ presentHalf p.epochAtFire
    ++ [natByte p.edits.length]
    ++ p.edits.flatMap Edit.encode

/-- The three bytes of one slot in the summary (R94). -/
def slotSummary (p : Option Plan) : List Byte :=
  [slotCode p, (p.map fun q => q.id).getD 0, (p.map fun q => q.trigger.code).getD absent]

/-- The summary of the table (R94). -/
def State.planSummary (s : State) : List Byte :=
  s.plans.toList.flatMap slotSummary ++ s.claims.toList.map fun c => c.getD 0

def planReadRequest (m : Message) (s : State) : Answer × State :=
  match m.payload with
  | [id] =>
    if id = 0 then (Answer.ok s.planSummary, s)
    else
      match s.findPlan id with
      | none => (Answer.refuse .noPlan, s)
      | some (k, p) => (Answer.ok (p.encode k), s)
  | _ => (Answer.refuse .badLength, s)

def execPlanRead (s : State) : Result :=
  .next (s.execute (fun k => decide (k = 0x34)) planReadRequest)

/-! ### Events -/

/-- EDIT_SETTLE (R88, R89). -/
def execEditSettle (e : Port) (s : State) : Result :=
  .next (s.event s.egresses[e].planSettle.isSome fun t =>
    match t.egresses[e].planSettle with
    | none => t
    | some ev => t.takeEditSettle e ev)

/-- The timer of an ARMED plan runs: the group wait of a GROUP plan, the arm expiry of any other. -/
def State.waits (s : State) (k : SlotId) (isGroup : Bool) : Bool :=
  s.plans[k].any fun p =>
    decide (p.state = .armed) && p.timer.isSome && decide (p.trigger.isGroup = isGroup)

/-- ARM_EXPIRY (R78, R90). -/
def execArmExpiry (k : SlotId) (s : State) : Result :=
  .next (s.event (s.waits k false) fun t =>
    match t.plans[k] with
    | none => t
    | some p => t.expirePlan k p .armTimeout false)

/-- GROUP_WAIT_EXPIRY (R79, R90, R106). -/
def execGroupWaitExpiry (k : SlotId) (qualifiedFirst : Bool) (s : State) : Result :=
  .next (s.event (s.waits k true) fun t =>
    match t.plans[k] with
    | none => t
    | some p => t.expirePlan k p .groupTimeout qualifiedFirst)

end Sys2Proof.Machine
end

