-- ==== Sys2Proof/Machine/GroupCommands.lean ====
section
/-! DEFINITION. The commands of the group interface (Chapter 5). -/

namespace Sys2Proof.Machine

/-- The membership a GROUP_CONFIG asks for: a MEMBER starts in LOW_IDLE (R100). -/
def readMembership (b : Byte) : Option Membership :=
  if b = 0 then some .unset
  else if b = 1 then some (.member .lowIdle)
  else if b = 2 then some .nonMember
  else none

/-- The membership and member state of a GROUP_CONFIG reply (R100). -/
def State.groupReport (s : State) : List Byte :=
  [s.group.membership.code, s.group.membership.memberCode]

/-- GROUP_CONFIG (R100). -/
def groupConfigRequest (m : Message) (s : State) : Answer × State :=
  match m.payload with
  | [b] =>
    match readMembership b with
    | none => (Answer.refuse .badField, s)
    | some next =>
      if next.code = s.group.membership.code then (Answer.ok s.groupReport, s)
      else if s.group.membership.isMember && s.groupBusy then (Answer.refuse .wrongState, s)
      else let t := s.groupTo next; (Answer.ok t.groupReport, t)
  | _ => (Answer.refuse .badLength, s)

def execGroupConfig (s : State) : Result :=
  .next (s.execute (fun k => decide (k = 0x40)) groupConfigRequest)

/-- The state code of the group plan record: ARMED or APPLYING (R101). -/
def GroupPlan.code (r : GroupPlan) : Byte :=
  if r.applying then PlanState.applying.code else PlanState.armed.code

/-- The ready field of GROUP_STATUS, present only while the group plan is ARMED (R110).  DESIGN CHOICE (log entry
32): for a plan armed during HOLD, whose condition is not yet evaluated (R103, R105), it is that of the present
line states. -/
def State.readyByte (s : State) : Byte :=
  match s.group.plan with
  | none => absent
  | some r => if r.applying then absent else flagByte (s.groupReady r)

/-- The GROUP_STATUS result (R110). -/
def State.groupStatusResult (s : State) : List Byte :=
  [s.group.membership.code, s.group.membership.memberCode, flagByte (!s.group.driveLow),
      flagByte s.group.high]
    ++ halfBytes s.group.epoch
    ++ [(s.group.plan.map fun r => r.id).getD 0, (s.group.plan.map GroupPlan.code).getD absent,
        s.readyByte, flagByte s.group.qualifying, flagByte s.group.episode]

def groupStatusRequest (m : Message) (s : State) : Answer × State :=
  match m.payload with
  | [] => (Answer.ok s.groupStatusResult, s)
  | _ :: _ => (Answer.refuse .badLength, s)

def execGroupStatus (s : State) : Result :=
  .next (s.execute (fun k => decide (k = 0x41)) groupStatusRequest)

/-- GRDY_LEVEL_CHANGE (R97, R104, R108); during a reset only the level is noted (log entry 29). -/
def execGrdyLevelChange (high : Bool) (s : State) : Result :=
  match s.phase with
  | .run => .next (s.event true fun t => t.setGroup (t.group.levelTo high))
  | .hardwareReset _ => .next (s.setGroup { s.group with high := high })
  | .restart _ => .next (s.setGroup { s.group with high := high })

/-- QUALIFICATION_COMPLETE: the group fire (R104). -/
def execQualificationComplete (s : State) : Result :=
  .next (s.event s.group.qualifying fun t => (t.setGroup t.group.fire).takeGroupFire)

/-- The hold timer runs. -/
def Group.holding (g : Group) : Bool :=
  match g.membership with
  | .member (.hold _) => true
  | .member (.released _) => false
  | .member .lowIdle => false
  | .member .lowWait => false
  | .unset => false
  | .nonMember => false

/-- HOLD_EXPIRY (R105). -/
def execHoldExpiry (s : State) : Result := .next (s.event s.group.holding State.groupHoldEnds)

/-- FAULT_TIMER_EXPIRY (R108): a fault episode begins, one occurrence of GRDY_FAULT. -/
def execFaultTimerExpiry (s : State) : Result :=
  .next (s.event s.group.faultTimer.isSome fun t =>
    (t.setGroup { t.group with faultTimer := none, episode := true }).occur grdyFault)

end Sys2Proof.Machine
end

