-- ==== Sys2Proof/Machine/ResetCommands.lean ====
section
/-! DEFINITION. The two resets: every block taking its reset state, and the events HARDWARE_RESET,
HARDWARE_RESET_END and RESTART_END (R167 to R169). -/

namespace Sys2Proof.Machine

/-- Every block takes its state for reset at once (R28, R70, R99, R113, R126, R139, R148, R167), and the
time base holds 0 (R170).  The input levels stay as the pins are, and no timer runs during the reset
(R108, R143). -/
def State.blocksReset (s : State) (phase : Phase) : State :=
  { s with
    phase := phase
    timeBase := 0
    subMicro := 0
    maxframe := 16384
    ports := s.ports.map fun g => Ingress.afterReset g.sd
    egresses := Vector.replicate 16 Egress.afterReset
    guards := Vector.replicate 16 none
    guardSerial := 0
    plans := Vector.replicate 8 none
    claims := Vector.replicate 16 none
    group := { Group.afterReset s.group.high with faultTimer := none }
    pattern := Pattern.afterReset
    pool := Pool.afterReset
    conds := Vector.replicate 40 Condition.afterReset
    senses := s.senses.map fun k : Sense => { level := k.level, qualifier := .low }
    notices := NoticeQueue.afterReset
    link := Link.afterReset }

/-- The input levels as they stand at the end of a hardware reset (R9, R97, R143). -/
def State.readInputs (s : State) (i : Inputs) : State :=
  { s with
    ports := Vector.ofFn fun p => { s.ports[p] with sd := i.sd.getLsbD p.val }
    senses := Vector.ofFn fun n => { s.senses[n] with level := i.sense.getLsbD n.val }
    group := { s.group with high := i.grdyHigh } }

/-- The end of a reset (R168): the blocks as after reset, by the input levels of that moment, the straps
taken (R123, R154), the time base at 0, and HELLO queued as notice 0. -/
def State.endReset (s : State) (cause : ResetCause) (straps : Straps) : State :=
  let t := s.blocksReset .run
  ({ t with
    group := Group.afterReset s.group.high
    senses := s.senses.map fun k : Sense => Sense.afterReset k.level
    strapPins := straps
    straps := straps }).notify (.hello cause straps)

/-- The reset cause HELLO reports for a hardware reset (R168). -/
def reportedCause : HardwareCause → ResetCause
  | .power => .power
  | .pin => .pin

/-- The cause of a hardware reset that begins in this phase: one that began with the supply coming up
stays so (R168). -/
def Phase.resetCause : Phase → HardwareCause → HardwareCause
  | .hardwareReset .power, _ => .power
  | .hardwareReset .pin, cause => cause
  | .run, cause => cause
  | .restart _, cause => cause

/-- Every block takes its state for reset, and the part reads TEP (R123, R167).  It pulls GRDY low from then on
(R99), which the level it reads follows on sound wiring (R97). -/
def State.enterReset (s : State) (phase : Phase) (tepHigh : Bool) : State :=
  { (s.groupTo .unset).blocksReset phase with strapPins := { s.strapPins with tepHigh := tepHigh } }

/-- The restart begins when the RESTART reply has been sent (R169): 20 us in ct.  The level of TEP that the part
reads then (R123) is an input that no command gives: a free value (log entry 21). -/
def State.beginRestart (s : State) : State :=
  (s.setDraws (s.draws + 1)).enterReset (.restart (20 * Config.ctPerUs)) (Config.tepReading s.draws)

/-- HARDWARE_RESET (R167): at any moment, overriding a restart (R168). -/
def execHardwareReset (cause : HardwareCause) (tepHigh : Bool) (s : State) : Result :=
  .next (s.enterReset (.hardwareReset (s.phase.resetCause cause)) tepHigh)

/-- HARDWARE_RESET_END (R168), during a hardware reset. -/
def execHardwareResetEnd (inputs : Inputs) (s : State) : Result :=
  match s.phase with
  | .hardwareReset cause =>
    .next (((s.readInputs inputs).endReset (reportedCause cause) inputs.straps).arbitrate)
  | .run => .next s
  | .restart _ => .next s

/-- RESTART_END (R169), during a restart; the levels of the other inputs are those the pins have had
since they last changed. -/
def execRestartEnd (straps : Straps) (s : State) : Result :=
  match s.phase with
  | .restart _ => .next ((s.endReset .request straps).arbitrate)
  | .run => .next s
  | .hardwareReset _ => .next s

end Sys2Proof.Machine
end

