-- ==== Sys2Proof/Machine/LinkCommands.lean ====
section
/-! DEFINITION. The commands of the management link: receiving, sending, and the requests that concern
the link itself (Chapter 9). -/

namespace Sys2Proof.Machine

/-- REQUEST_ARRIVAL (R158, R161, R162): a whole message with a good check value. -/
def execRequestArrival (kind tag : Byte) (payload : List Byte) (s : State) : Result :=
  .next (s.event (s.listening && decide (payload.length ≤ maxPayload)) fun t =>
    t.messageReceived kind tag payload)

/-- CHECK_FAILURE (R160). -/
def execCheckFailure (s : State) : Result :=
  .next (s.event s.listening State.messageDiscarded)

/-- LEN_OUT_OF_RANGE (R157): back to SEEK, no condition. -/
def execLenOutOfRange (len : Byte) (s : State) : Result :=
  .next (s.event (s.listening && !lenInRange len) State.framerToSeek)

/-- GAP_TIMER_EXPIRY (R159): the message is truncated, one occurrence of LINK_TRUNC. -/
def execGapTimerExpiry (s : State) : Result :=
  .next (s.event s.link.gapTimer.isSome fun t => t.framerToSeek.occur linkTrunc)

/-- BYTE_RECEIVED (R157, R158). -/
def execByteReceived (b : Byte) (framingError : Bool) (s : State) : Result :=
  .next (s.event s.listening fun t => t.takeByte b framingError)

/-- SEND_COMPLETE (R166): MTX is idle and the arbiter chooses; after the RESTART reply the restart
begins instead (R169). -/
def execSendComplete (s : State) : Result :=
  match s.phase, s.link.mtx with
  | .run, some m =>
    if m.restart then .next s.beginRestart
    else .next (s.setLink { s.link with mtx := none }).arbitrate
  | _, _ => .next s

/-- UNKNOWN_REQUEST_KIND (R164, step 1). -/
def execUnknownRequestKind (s : State) : Result :=
  .next (s.execute (fun k => !requestKinds.contains k) fun _ t => (Answer.refuse .badKind, t))

/-- ECHO is carried out with a payload of 0 to 247 bytes (R172, R177). -/
def echoRequest (m : Message) (s : State) : Answer × State :=
  if m.payload.length ≤ 247 then (Answer.ok m.payload, s) else (Answer.refuse .badLength, s)

def execEcho (s : State) : Result := .next (s.execute (fun k => decide (k = 0x01)) echoRequest)

/-- The plan state codes 0 to 6, in the order of the plan counts of STATUS (R171). -/
def planStateCodes : List Byte := [0, 1, 2, 3, 4, 5, 6]

/-- How many slots stand in each plan state (R171). -/
def State.planCounts (s : State) : List Byte :=
  planStateCodes.map fun c => natByte (s.plans.toList.countP fun p => decide (slotCode p = c))

/-- The STATUS result (R171, section 10.5.1): the request has left the intake queue, and its own reply
entry is counted. -/
def State.statusResult (s : State) : List Byte :=
  halfBytes Config.partCode
    ++ [Config.siliconRevision]
    ++ wordBytes s.timeBase
    ++ [natByte s.link.intake.length, natByte (s.link.replies + 1), flagByte s.link.restartPending,
        natByte s.notices.entries.length, flagByte s.notices.firstLoss.isSome, s.notices.lost]
    ++ s.planCounts

def statusRequest (m : Message) (s : State) : Answer × State :=
  match m.payload with
  | [] => (Answer.ok s.statusResult, s)
  | _ :: _ => (Answer.refuse .badLength, s)

def execStatus (s : State) : Result := .next (s.execute (fun k => decide (k = 0x02)) statusRequest)

/-- RESTART (R169): restart pending is set, a partial message is discarded, and the reply is OK. -/
def restartRequest (m : Message) (s : State) : Answer × State :=
  match m.payload with
  | [] =>
    ({ status := .ok, result := [], restart := true },
      s.setLink { s.link with restartPending := true, framer := .seek, gapTimer := none })
  | _ :: _ => (Answer.refuse .badLength, s)

def execRestart (s : State) : Result := .next (s.execute (fun k => decide (k = 0x03)) restartRequest)

end Sys2Proof.Machine
end

