-- ==== Sys2Proof/Machine/MapCommands.lean ====
section
/-! DEFINITION. The commands of the connection map and of the guards (Chapters 2 and 3). -/

namespace Sys2Proof.Machine

/-! ### CONNECT (R45, R46) -/

/-- A CONNECT that is not refused (R46, steps 1 to 3), and the expiry of a hold-off of 0 after its change
has been taken (R55). -/
def State.connect (s : State) (e : Port) (entry : Entry) (deadline : Nat) (notify : Bool) (tag : Byte) :
    State :=
  let t := s.setEgress e { s.egresses[e] with entry := entry }
  let u := (t.newGuard e .watching).guardInit e
  let v := u.takeChange e
    { target := entry.source
      policy := entry.policy
      deadline := if deadline = 0 then none else some deadline
      requester := .connect tag notify
      cut := .none }
  v.holdOffIfZero e

def connectRequest (m : Message) (s : State) : Answer × State :=
  match m.payload with
  | [e, b0, b1, b2, b3, b4, b5, dh, dl, n] =>
    match readBelow 16 e, Entry.decode b0 b1 b2 b3 b4 b5, readFlag n with
    | some egress, some entry, some notify =>
      if s.claims[egress].isSome then (Answer.refuse .egressClaimed, s)
      else (Answer.ok [], s.connect egress entry (readHalf dh dl).toNat notify m.tag)
    | _, _, _ => (Answer.refuse .badField, s)
  | _ => (Answer.refuse .badLength, s)

def execConnect (s : State) : Result := .next (s.execute (fun k => decide (k = 0x20)) connectRequest)

/-! ### MAP_READ (R50, R180) -/

/-- The last-switch byte of a guard (R176): FFH when absent. -/
def lastSwitchByte : Option LastSwitch → Byte
  | none => absent
  | some l => outcomeByte l.outcome (decide (l.target = .standby)) l.sourceDown

/-- The record of one egress (R180). -/
def State.mapRecord (s : State) (e : Port) : List Byte :=
  let g := s.egresses[e]
  g.entry.encode
    ++ [g.conditionCode, g.current.code, (g.change.map fun c => c.target.code).getD absent,
        s.claims[e].getD 0, (s.guards[e].map fun r => r.state.code).getD absent]
    ++ natThree (((s.guards[e].bind fun r => r.state.timer).map ctToMsUp).getD 0)
    ++ [lastSwitchByte (s.guards[e].bind fun r => r.last)]

def mapReadRequest (m : Message) (s : State) : Answer × State :=
  match m.payload with
  | [] => (Answer.ok (allPorts.flatMap s.mapRecord), s)
  | _ :: _ => (Answer.refuse .badLength, s)

def execMapRead (s : State) : Result := .next (s.execute (fun k => decide (k = 0x21)) mapReadRequest)

/-! ### GUARD_CONTROL (R62 to R65) -/

/-- A guard command applied to the guard of `e`. -/
def State.guardCommand (s : State) (e : Port) (r : Guard) (f : GuardFields) : GuardCommand → State
  | .lock => s.guardLock e r
  | .forceStandby => s.guardForce e r
  | .clear => s.guardClear e r f

/-- The guard condition and selection of `e` (R62). -/
def State.guardReport (s : State) (e : Port) : List Byte :=
  match s.guards[e] with
  | none => [absent, absent]
  | some r => [r.state.code, (r.state.selection.map Selection.code).getD absent]

def guardControlRequest (m : Message) (s : State) : Answer × State :=
  match m.payload with
  | [e, c] =>
    match readBelow 16 e, GuardCommand.read c with
    | some egress, some cmd =>
      match s.guards[egress], s.egresses[egress].entry.guard with
      | some r, some f =>
        if s.claims[egress].isSome then (Answer.refuse .egressClaimed, s)
        else
          let t := s.guardCommand egress r f cmd
          (Answer.ok (t.guardReport egress), t)
      | _, _ => (Answer.refuse .badField, s)
    | _, _ => (Answer.refuse .badField, s)
  | _ => (Answer.refuse .badLength, s)

def execGuardControl (s : State) : Result :=
  .next (s.execute (fun k => decide (k = 0x22)) guardControlRequest)

/-! ### Drains and joins -/

/-- The terminator of the old frame that a draining egress holds back until DRAIN_END takes it. -/
def Egress.terminatorDue (g : Egress) : Bool :=
  decide (g.state = .draining) && g.held.any isTerminator

/-- DRAIN_END (R37). -/
def execDrainEnd (e : Port) (s : State) : Result :=
  .next (s.event s.egresses[e].terminatorDue fun t =>
    match t.egresses[e].held with
    | none => t
    | some c => t.endDrain e c)

/-- A drain whose change has a deadline (R39). -/
def Egress.drainsByDeadline (g : Egress) : Bool :=
  decide (g.state = .draining) && g.change.any fun c => c.deadline.isSome

/-- DEADLINE_EXPIRY (R39). -/
def execDeadlineExpiry (e : Port) (s : State) : Result :=
  .next (s.event s.egresses[e].drainsByDeadline fun t => t.expireDeadline e)

/-- JOIN_COMPLETE (R38). -/
def execJoinComplete (e : Port) (s : State) : Result :=
  .next (s.event (s.joinReady e) fun t => t.tryJoin e)

/-! ### Guard timers -/

/-- The hold-off timer of the guard of `e` runs. -/
def State.inHoldoff (s : State) (e : Port) : Bool :=
  match s.guards[e] with
  | some { ident := _, state := .holdoff _, last := _ } => true
  | _ => false

/-- The wait-to-restore timer of the guard of `e` runs. -/
def State.inRestoreWait (s : State) (e : Port) : Bool :=
  match s.guards[e] with
  | some { ident := _, state := .restoreWait _, last := _ } => true
  | _ => false

/-- HOLD_OFF_EXPIRY (R57, R61). -/
def execHoldOffExpiry (e : Port) (s : State) : Result :=
  .next (s.event (s.inHoldoff e) fun t =>
    match t.egresses[e].entry.guard with
    | none => t
    | some f => t.holdOffExpired e f)

/-- WAIT_TO_RESTORE_EXPIRY (R60, R61). -/
def execWaitToRestoreExpiry (e : Port) (s : State) : Result :=
  .next (s.event (s.inRestoreWait e) fun t => t.guardSwitch e .primary true .watching)

end Sys2Proof.Machine
end

