-- ==== Sys2Proof/Machine/IngressUnit.lean ====
section
/-! DEFINITION. The ingress sections: line states and line events, the elastic buffer, the frame
tracker and the pattern checker (Chapter 1). -/

namespace Sys2Proof.Machine

/-! ### Line events (R8) -/

/-- A change of line state that latches LINE(n): QUIET or CARRY left for DARK, HUNT or NOISY (R8). -/
def latchesLine (old new : LineState) : Bool := old.fit && !new.fit

/-- What the guard of `e` and the blocks it moves do on a change of the line of `p` (R51). -/
def State.guardLineParts (s : State) (e p : Port) (old new : LineState) : List (List (State → State)) :=
  match s.guardHears e p old new with
  | none => []
  | some ev => s.guardEventParts e ev

/-- What the receivers of a change of the line of `p` from `old` to `new` do, each block's own in order (R8): the
condition unit, the group interface, and the guards. -/
def State.lineParts (s : State) (p : Port) (old new : LineState) : List (List (State → State)) :=
  (if latchesLine old new then [[(State.occur · (lineCond p))]] else [])
    ++ (if s.group.watches p then [[State.groupLineEvent]] else [])
    ++ allPorts.flatMap fun e => s.guardLineParts e p old new

/-- The line of `p`, which was `old` and now stands at its new state, is announced (R8): what the receivers do comes
together, their notices in any order that keeps each block's own (R153; log entry 11). -/
def State.announceLine (s : State) (p : Port) (old : LineState) : State :=
  let new := s.ports[p].line
  if old = new then s else s.together (s.lineParts p old new)

/-- Put ingress `p` in state `g`, and announce the change of its line if there is one. -/
def State.putIngress (s : State) (p : Port) (g : Ingress) : State :=
  (s.setPort p g).announceLine p s.ports[p].line

/-- What entry to DARK or HUNT does to an ingress (R1, R3, R10, R19): the alignment, violation run,
noise window, buffer and marks go, the traffic timer stops, and a tracker INSIDE owes an ABORT and
counts a cut.  DESIGN CHOICE (log entry 27): a slip that an overflow INSIDE still owes (R12) goes with the buffer
and is never counted. -/
def Ingress.lose (g : Ingress) (line : LineState) : Ingress :=
  let h : Ingress := if g.tracker.isInside then { g.bump .framesCut with abortDue := true } else g
  { h with
    line := line
    searchRun := 0
    violationRun := 0
    window := none
    quietWindows := 0
    traffic := none
    buffer := []
    priming := false
    slipPending := false
    tracker := .outside }

/-! ### Signal detect and alignment (section 1.2) -/

/-- 1 us in ct (R1). -/
def sdLossCt : Nat := Config.ctPerUs

/-- Entry to QUIET from HUNT (R2). -/
def Ingress.lock (g : Ingress) : Ingress :=
  { g with
    line := .quiet
    searchRun := 0
    violationRun := 0
    window := some { pos := 0, count := 0 }
    quietWindows := 0
    traffic := none
    buffer := []
    priming := true
    slipPending := false }

/-- A character found while searching (R2): the third in one alignment, none a VIOLATION, locks it. -/
def Ingress.search (g : Ingress) (c : Character) (realigned : Bool) : Ingress :=
  if c = .violation then { g with searchRun := 0 }
  else
    let run := if realigned then 1 else g.searchRun + 1
    if run = 3 then g.lock else { g with searchRun := run }

/-! ### The elastic buffer (section 1.4) -/

def BufItem.isChar : BufItem → Bool
  | .char _ => true
  | .lostOpen => false
  | .slip => false

/-- The occupancy: characters, for a mark holds no space (R13). -/
def Ingress.level (g : Ingress) : Nat := g.buffer.countP BufItem.isChar

/-- An OPEN stands in the buffer with no SHUT or ABORT after it (R13). -/
def frameOpenIn (buffer : List BufItem) : Bool :=
  buffer.foldl (fun opened b =>
    match b with
    | .char .opn => true
    | .char .shut => false
    | .char .abort => false
    | .char (.data _) => opened
    | .char .fill => opened
    | .char .mark => opened
    | .char .violation => opened
    | .lostOpen => opened
    | .slip => opened) false

/-- A character arrives at a full buffer and is dropped (R12, R13): while INSIDE a slip is owed; else a
dropped OPEN leaves a lost-OPEN mark, and another character a slip mark if an OPEN stands ahead of it
with no terminator after it.  DESIGN CHOICE (log entry 27): a second overflow while INSIDE, before the slip owed for
the first has been handed over, owes no second slip, so the two count as one. -/
def Ingress.overflow (g : Ingress) (c : Character) : Ingress :=
  if g.tracker.isInside then { g with slipPending := true }
  else if c = .opn then { g with buffer := g.buffer ++ [.lostOpen] }
  else if frameOpenIn g.buffer then { g with buffer := g.buffer ++ [.slip] }
  else g

/-- The decoder writes a character at the tail (R10); priming ends at 16. -/
def Ingress.write (g : Ingress) (c : Character) : Ingress :=
  if g.level = 32 then g.overflow c
  else
    { g with
      buffer := g.buffer ++ [.char c]
      priming := g.priming && decide (g.level + 1 < 16) }

/-- A VIOLATION counts in the noise window it is received in (R3, R5). -/
def Window.violation (w : Window) : Window := { w with count := w.count + 1 }

/-- The decoder delivers a character in QUIET, CARRY or NOISY (R3): VIOLATIONs are counted, and the
fourth in a row puts the line in HUNT without being written. -/
def Ingress.deliver (g : Ingress) (c : Character) : Ingress :=
  if c = .violation then
    let h : Ingress :=
      { g.bump .violations with
        window := g.window.map Window.violation
        violationRun := g.violationRun + 1 }
    if h.violationRun = 4 then h.lose .hunt else h.write c
  else ({ g with violationRun := 0 }).write c

/-! ### What the read side hands over (R10 to R13) -/

/-- The item of one character time; `owedAbort` and `idle` are the tracker's own output in R19 and in
DARK or HUNT. -/
inductive ReadItem where
  | owedAbort
  | idle
  | char (c : Character)
  | inserted
  | slip
  | lostOpen
  | slipMark
deriving DecidableEq, Repr

/-- Between frames, whether the head character may be deleted (R11). -/
def deletable (discarding : Bool) (c : Character) : Bool :=
  if discarding then decide (c ≠ .opn) else decide (c = .fill)

/-- Read between frames from a buffer with a character at its head (R11): delete the head above 20,
insert below 12, else read. -/
def readBetween (discarding : Bool) (level : Nat) (c : Character) (rest : List BufItem) :
    ReadItem × List BufItem :=
  if level < 12 then (.inserted, .char c :: rest)
  else if 20 < level ∧ deletable discarding c then
    match rest with
    | .char d :: rest' => (.char d, rest')
    | .lostOpen :: _ => (.char c, rest)
    | .slip :: _ => (.char c, rest)
    | [] => (.char c, rest)
  else (.char c, rest)

/-- The item handed to the tracker, and the buffer after it (R10).  A mark at the head is taken before
the level is looked at (log entry 15). -/
def Ingress.nextItem (g : Ingress) : ReadItem × List BufItem :=
  if g.abortDue then (.owedAbort, g.buffer)
  else if !g.line.delivering then (.idle, g.buffer)
  else if g.slipPending then (.slip, g.buffer)
  else if g.priming then (.inserted, g.buffer)
  else
    match g.buffer with
    | .lostOpen :: rest => (.lostOpen, rest)
    | .slip :: rest => (.slipMark, rest)
    | [] => if g.tracker.isInside then (.slip, []) else (.inserted, [])
    | .char c :: rest =>
      if g.tracker.isInside then (.char c, rest)
      else readBetween (decide (g.tracker = .discard)) g.level c rest

/-! ### The frame tracker (section 1.5) -/

/-- What a read reports beside the emitted character: a good frame with its length, sequence number and
whether its bytes agree (R16, R22), or a MARK event (R15). -/
inductive TrackEvent where
  | none
  | goodFrame (length : Nat) (seq : Half) (agrees : Bool)
  | mark
deriving DecidableEq, Repr

/-- One read of the tracker: the character emitted, its frame position, the ingress after it, and what
it reports. -/
structure Tracked where
  emitted : Character
  inside : Bool
  after : Ingress
  event : TrackEvent
deriving DecidableEq, Repr

/-- Byte `i` of a pattern frame with sequence number `s` (R114, section 1.7). -/
def patternByte (s : Half) (i : Nat) : Byte :=
  if i = 0 then s.extractLsb' 8 8
  else if i = 1 then s.extractLsb' 0 8
  else BitVec.ofNat 8 (s.toNat + 7 * i)

/-- The frame's sequence number and agreement after DATA `v` as its byte `i` (R22). -/
def checkData (seq : Half) (agrees : Bool) (i : Nat) (v : Byte) : Half × Bool :=
  if i = 0 then (readHalf v 0, agrees)
  else if i = 1 then (readHalf (seq.extractLsb' 8 8) v, agrees)
  else (seq, agrees && decide (v = patternByte seq i))

def Ingress.trackTo (g : Ingress) (t : Tracker) : Ingress := { g with tracker := t }

/-- Emit FILL, position OUTSIDE, with nothing to report. -/
def emitFill (g : Ingress) : Tracked := { emitted := .fill, inside := false, after := g, event := .none }

/-- An OPEN is accepted: INSIDE with a data count of 0 and MAXFRAME latched (R15, R18). -/
def Ingress.openFrame (g : Ingress) (maxframe : Nat) : Tracked :=
  { emitted := .opn, inside := true, after := g.trackTo (.inside 0 maxframe 0 true), event := .none }

/-- OUTSIDE (R15, R13). -/
def Ingress.trackOutside (g : Ingress) (maxframe : Nat) : ReadItem → Tracked
  | .char .mark => { emitted := .mark, inside := false, after := g.bump .marks, event := .mark }
  | .char .opn => g.openFrame maxframe
  | .char .shut => emitFill (g.bump .strayDelimiters)
  | .char .abort => emitFill (g.bump .strayDelimiters)
  | .char .fill => emitFill g
  | .char (.data _) => emitFill g
  | .char .violation => emitFill g
  | .lostOpen => emitFill (((g.bump .slips).bump .framesCut).trackTo .discard)
  | .slipMark => emitFill g
  | .inserted => emitFill g
  | .idle => emitFill g
  | .slip => emitFill g
  | .owedAbort => emitFill g

/-- The tracker cuts the frame (R17): ABORT, DISCARD, frames_cut. -/
def Ingress.trackCut (g : Ingress) : Tracked :=
  { emitted := .abort, inside := true, after := (g.bump .framesCut).trackTo .discard, event := .none }

/-- INSIDE (R16, R17, R12, R13). -/
def Ingress.trackInside (g : Ingress) (count limit : Nat) (seq : Half) (agrees : Bool) :
    ReadItem → Tracked
  | .char (.data v) =>
    if count < limit then
      let k := checkData seq agrees count v
      { emitted := .data v, inside := true
        after := g.trackTo (.inside (count + 1) limit k.1 k.2), event := .none }
    else
      { emitted := .abort, inside := true, after := (g.bump .runaways).trackTo .discard
        event := .none }
  | .char .shut =>
    { emitted := .shut, inside := true, after := (g.bump .framesGood).trackTo .outside
      event := .goodFrame count seq agrees }
  | .char .abort =>
    { emitted := .abort, inside := true, after := (g.bump .framesAborted).trackTo .outside
      event := .none }
  | .char .violation => g.trackCut
  | .char .fill => g.trackCut
  | .char .mark => g.trackCut
  | .char .opn => g.trackCut
  | .inserted => g.trackCut
  | .slip => (g.bump .slips).trackCut
  | .slipMark => (g.bump .slips).trackCut
  | .lostOpen => (g.bump .slips).trackCut
  | .idle => g.trackCut
  | .owedAbort => g.trackCut

/-- DISCARD (R18, R13). -/
def Ingress.trackDiscard (g : Ingress) (maxframe : Nat) : ReadItem → Tracked
  | .char .opn => g.openFrame maxframe
  | .char .mark => emitFill g
  | .char .shut => emitFill g
  | .char .abort => emitFill g
  | .char .fill => emitFill g
  | .char (.data _) => emitFill g
  | .char .violation => emitFill g
  | .lostOpen => emitFill ((g.bump .slips).bump .framesCut)
  | .slipMark => emitFill g
  | .inserted => emitFill g
  | .idle => emitFill g
  | .slip => emitFill g
  | .owedAbort => emitFill g

/-- One read of the tracker (R15 to R19). -/
def Ingress.track (g : Ingress) (maxframe : Nat) (item : ReadItem) : Tracked :=
  if item = .owedAbort then
    { emitted := .abort, inside := true, after := { g with abortDue := false }, event := .none }
  else
    match g.tracker with
    | .outside => g.trackOutside maxframe item
    | .inside count limit seq agrees => g.trackInside count limit seq agrees item
    | .discard => g.trackDiscard maxframe item

/-- The item, the read, and the clean stream's new character, of one character time. -/
def Ingress.readOnce (g : Ingress) (maxframe : Nat) : Tracked :=
  let item := g.nextItem
  let h : Ingress :=
    { g with
      buffer := item.2
      slipPending := g.slipPending && decide (item.1 ≠ .slip)
      readDue := false }
  let t := h.track maxframe item.1
  { t with after := { t.after with clean := t.emitted, cleanInside := t.inside } }

/-! ### Good frames (R4, R22) -/

/-- 100 ms in ct (R4). -/
def trafficCt : Nat := 100 * Config.ctPerMs

/-- The pattern check of a frame whose SHUT passes in VERIFY, against the length in force (R22). -/
def Ingress.patternCheck (g : Ingress) (patternLength length : Nat) (seq : Half) (agrees : Bool) :
    Ingress :=
  match g.mode with
  | .normal => g
  | .verify =>
    if length = patternLength ∧ agrees then
      let h := g.bump .patternGood
      let k :=
        match g.expected with
        | none => h
        | some e => if e = seq then h else h.bump .patternGaps
      { k with expected := some (seq + 1) }
    else g.bump .patternBad

/-- A good frame is reported: the traffic timer restarts, and QUIET becomes CARRY (R4). -/
def Ingress.goodFrame (g : Ingress) : Ingress :=
  if g.line.delivering then
    { g with traffic := some trafficCt, line := if g.line = .quiet then .carry else g.line }
  else g

/-! ### The noise window (R5 to R7) -/

/-- 4096 ct (R5). -/
def windowCt : Nat := 4096

/-- A noise window with count `n` ends (R5, R6, R7). -/
def Ingress.endWindow (g : Ingress) (n : Nat) : Ingress :=
  let loud := decide (g.threshold.toNat ≤ n)
  let h : Ingress := { g with lastWindow := n, window := some { pos := 0, count := 0 } }
  match g.line with
  | .noisy =>
    if loud then { h with quietWindows := 0 }
    else if g.quietWindows + 1 = 4 then
      { h with quietWindows := 0, line := if g.traffic.isSome then .carry else .quiet }
    else { h with quietWindows := g.quietWindows + 1 }
  | .quiet => if loud then { h with line := .noisy, quietWindows := 0 } else h
  | .carry => if loud then { h with line := .noisy, quietWindows := 0 } else h
  | .dark => g
  | .hunt => g

end Sys2Proof.Machine
end

