-- ==== Sys2Proof/Machine/PortCommands.lean ====
section
/-! DEFINITION. The commands of the ingress sections and their settings (Chapter 1). -/

namespace Sys2Proof.Machine

/-! ### Requests -/

/-- SET_FRAMING: MAXFRAME from 64 to 65535 (R24). -/
def setFramingRequest (m : Message) (s : State) : Answer × State :=
  match m.payload with
  | [hi, lo] =>
    let n := (readHalf hi lo).toNat
    if 64 ≤ n then (Answer.ok [], s.setMaxframe n) else (Answer.refuse .badField, s)
  | _ => (Answer.refuse .badLength, s)

def execSetFraming (s : State) : Result :=
  .next (s.execute (fun k => decide (k = 0x10)) setFramingRequest)

/-- The ingress mode is set (R21): entry into VERIFY and a change to NORMAL leave no expected
sequence; VERIFY named in VERIFY keeps it. -/
def Ingress.setMode (g : Ingress) (mode : IngressMode) : Ingress :=
  { g with
    mode := mode
    expected := match g.mode, mode with
      | .verify, .verify => g.expected
      | .normal, .verify => none
      | _, .normal => none }

/-- SET_PORT replaces all three settings of a port together (R23). -/
def setPortRequest (m : Message) (s : State) : Answer × State :=
  match m.payload with
  | [p, t, n, v] =>
    match readBelow 16 p, TxenMode.read t, IngressMode.read v with
    | some port, some txen, some mode =>
      if n = 0 then (Answer.refuse .badField, s)
      else
        let g := s.ports[port]
        (Answer.ok [], s.setPort port { g.setMode mode with txen := txen, threshold := n })
    | _, _, _ => (Answer.refuse .badField, s)
  | _ => (Answer.refuse .badLength, s)

def execSetPort (s : State) : Result := .next (s.execute (fun k => decide (k = 0x11)) setPortRequest)

/-- The PORT_STATUS result (R25, section 10.5.2). -/
def Ingress.statusResult (g : Ingress) : List Byte :=
  [g.line.code, flagByte g.sd, flagByte g.traffic.isSome, g.tracker.code, natByte g.level]
    ++ natHalf g.lastWindow
    ++ [g.txen.code, g.threshold, g.mode.code]
    ++ presentHalf g.expected
    ++ g.counters.toList.flatMap wordBytes

/-- The eleven counters cleared (R25). -/
def Ingress.clearCounters (g : Ingress) : Ingress := { g with counters := Vector.replicate 11 0 }

/-- PORT_STATUS, with the counters cleared at the same moment when the flag asks for it (R25). -/
def portStatusRequest (m : Message) (s : State) : Answer × State :=
  match m.payload with
  | [p, c] =>
    match readBelow 16 p, readFlag c with
    | some port, some clear =>
      let g := s.ports[port]
      (Answer.ok g.statusResult, if clear then s.setPort port g.clearCounters else s)
    | _, _ => (Answer.refuse .badField, s)
  | _ => (Answer.refuse .badLength, s)

def execPortStatus (s : State) : Result :=
  .next (s.execute (fun k => decide (k = 0x12)) portStatusRequest)

/-! ### Signal detect (R1) -/

/-- Note the level of an SD pin; during a reset nothing else comes of it (log entry 29). -/
def State.trackSd (s : State) (p : Port) (level : Bool) : State :=
  s.setPort p { s.ports[p] with sd := level }

/-- SD_DEASSERT (R1): the SD loss timer starts. -/
def execSdDeassert (p : Port) (s : State) : Result :=
  match s.phase with
  | .run =>
    .next (s.event s.ports[p].sd fun t =>
      t.setPort p { t.ports[p] with sd := false, sdLoss := some sdLossCt })
  | .hardwareReset _ => .next (s.trackSd p false)
  | .restart _ => .next (s.trackSd p false)

/-- The ingress once SDn has asserted (R1): the loss timer stops, and a DARK line is in HUNT at once. -/
def Ingress.sdAsserted (g : Ingress) : Ingress :=
  { g with
    sd := true
    sdLoss := none
    line := if g.line = .dark then .hunt else g.line
    searchRun := if g.line = .dark then 0 else g.searchRun }

/-- SD_ASSERT (R1). -/
def execSdAssert (p : Port) (s : State) : Result :=
  match s.phase with
  | .run => .next (s.event (!s.ports[p].sd) fun t => t.putIngress p t.ports[p].sdAsserted)
  | .hardwareReset _ => .next (s.trackSd p true)
  | .restart _ => .next (s.trackSd p true)

/-- SD_LOSS_TIMER_EXPIRY (R1): the line enters DARK whatever its state. -/
def execSdLossTimerExpiry (p : Port) (s : State) : Result :=
  .next (s.event s.ports[p].sdLoss.isSome fun t =>
    t.putIngress p { t.ports[p].lose .dark with sdLoss := none })

/-! ### Characters -/

/-- The ingress after its decoder finds a character (R2, R3): nothing in DARK, a search in HUNT, a
delivery else. -/
def Ingress.receiveCharacter (g : Ingress) (c : Character) (realigned : Bool) : Ingress :=
  match g.line with
  | .dark => g
  | .hunt => g.search c realigned
  | .quiet => g.deliver c
  | .carry => g.deliver c
  | .noisy => g.deliver c

/-- CHARACTER_RECEIVED (R2, R3, R10, R12, R13). -/
def execCharacterReceived (p : Port) (c : Character) (realigned : Bool) (s : State) : Result :=
  .next (s.event true fun t => t.putIngress p (t.ports[p].receiveCharacter c realigned))

/-- One character time of the read side of ingress `p` (R10, R15 to R19): the emitted character is
offered to the selectors (R14), and then a good frame is checked and reported (R22, R4) or a MARK event is given
(R81). -/
def State.readTracker (s : State) (p : Port) : State :=
  let t := s.ports[p].readOnce s.maxframe
  let u := (s.setPort p t.after).offer (.ingress p) t.emitted
  match t.event with
  | .none => u
  | .goodFrame length seq agrees =>
    u.putIngress p (t.after.patternCheck s.pattern.length length seq agrees).goodFrame
  | .mark => u.setPort p { t.after with markDue := true }

/-- The MARK event of ingress `p` is taken: it fires the plans that wait on it (R81). -/
def State.takeMark (s : State) (p : Port) : State :=
  (s.setPort p { s.ports[p] with markDue := false }).fireWaiting (.mark p)

/-- The MARK events given in a character time that is over are taken, in an order the free choice gives (R81;
log entry 34). -/
def State.takeMarks (s : State) : State :=
  s.inSomeOrder (allPorts.filter fun p => s.ports[p].markDue) fun p t => t.takeMark p

/-- Every ingress has made its read of the present character time (R10). -/
def State.readsOver (s : State) : Bool := allPorts.all fun p => !s.ports[p].readDue

/-- A second read of one ingress in a character time belongs to the next one: the MARK events of the one before are
taken first (R81; log entry 34). -/
def State.beforeRead (s : State) (p : Port) : State := if s.ports[p].readDue then s else s.takeMarks

/-- The fire that a MARK causes follows its character time, so it waits for the last read of it (R81; log entry
34). -/
def State.afterRead (s : State) : State := if s.readsOver then s.takeMarks else s

/-- TRACKER_READ. -/
def execTrackerRead (p : Port) (s : State) : Result :=
  .next (s.event (s.sourceOpen (.ingress p)) fun t => ((t.beforeRead p).readTracker p).afterRead)

/-! ### The noise window and the traffic timer -/

/-- NOISE_WINDOW_END (R5, R6, R7). -/
def execNoiseWindowEnd (p : Port) (s : State) : Result :=
  .next (s.event s.ports[p].window.isSome fun t =>
    match t.ports[p].window with
    | none => t
    | some w => t.putIngress p (t.ports[p].endWindow w.count))

/-- The traffic timer has expired (R4): CARRY returns to QUIET. -/
def Ingress.trafficExpired (g : Ingress) : Ingress :=
  { g with traffic := none, line := if g.line = .carry then .quiet else g.line }

/-- TRAFFIC_TIMER_EXPIRY (R4). -/
def execTrafficTimerExpiry (p : Port) (s : State) : Result :=
  .next (s.event s.ports[p].traffic.isSome fun t => t.putIngress p t.ports[p].trafficExpired)

end Sys2Proof.Machine
end

