-- ==== Sys2Proof/Machine/SourceCommands.lean ====
section
/-! DEFINITION. The commands of the PATTERN generator and of the injection buffer (Chapters 6 and 7). -/

namespace Sys2Proof.Machine

/-! ### The PATTERN generator -/

/-- Replace the three settings (R117, R118): enabling from off restarts the numbering at 0. -/
def Pattern.configure (g : Pattern) (enable : Bool) (length gap : Nat) : Pattern :=
  { g with
    enable := enable
    length := length
    gap := gap
    next := if enable && !g.enable then 0 else g.next }

/-- The PATTERN_CONFIG result (section 10.5.5). -/
def Pattern.report (g : Pattern) : List Byte :=
  [flagByte g.enable] ++ natHalf g.length ++ natHalf g.gap ++ [g.phase.code]
    ++ presentHalf g.phase.sequence ++ halfBytes g.next

/-- PATTERN_CONFIG (R118). -/
def patternConfigRequest (m : Message) (s : State) : Answer × State :=
  match m.payload with
  | [e, lh, ll, gh, gl] =>
    let length := (readHalf lh ll).toNat
    let gap := (readHalf gh gl).toNat
    match readFlag e with
    | some enable =>
      if 4 ≤ length ∧ length ≤ 1024 ∧ 8 ≤ gap ∧ gap ≤ 4096 then
        let g := s.pattern.configure enable length gap
        (Answer.ok g.report, s.setPattern g)
      else (Answer.refuse .badField, s)
    | none => (Answer.refuse .badField, s)
  | _ => (Answer.refuse .badLength, s)

def execPatternConfig (s : State) : Result :=
  .next (s.execute (fun k => decide (k = 0x50)) patternConfigRequest)

/-- A frame start may be taken: it is due, or it is due in the character time after this one, the gap
being over or the generator enabled in IDLE (R115, R117).  DESIGN CHOICE (log entry 35): one that is commanded is
taken at once though the FILL of this character time has been offered, so FILL and OPEN share it. -/
def Pattern.atFrameStart (g : Pattern) : Bool :=
  g.startDue
    || (match g.phase with
        | .idle => g.enable
        | .frame _ _ _ _ => false
        | .gap _ _ gap pos => decide (pos = gap))

/-- The generator at a frame start (R115): a new frame with the settings in force, or IDLE; with the
character it offers. -/
def Pattern.frameStart (g : Pattern) : Pattern × Character :=
  if g.enable then
    ({ g with phase := .frame g.next g.length g.gap 0, next := g.next + 1, startDue := false }, .opn)
  else ({ g with phase := .idle, startDue := false }, .fill)

/-- PATTERN_FRAME_START (R115). -/
def execPatternFrameStart (s : State) : Result :=
  .next (s.event (s.pattern.atFrameStart && s.sourceOpen .pattern) fun t =>
    (t.setPattern t.pattern.frameStart.1).offer .pattern t.pattern.frameStart.2)

/-! ### INJECT_START (R128) -/

/-- A complete frame joins the tail of its target's queue (R128, R130, R133). -/
def Pool.enqueue (p : Pool) (e : Port) (f : Frame) : Pool :=
  p.setView e { p.views[e] with queue := p.views[e].queue ++ [f] }

/-- The lower-numbered FREE assembly context (R128). -/
def Pool.freeContext (p : Pool) : Option ContextId := allContexts.find? fun k => p.contexts[k].isNone

/-- 500 ms in ct (R132). -/
def assemblyCt : Nat := 500 * Config.ctPerMs

/-- The next frame id moves on once the present one has been given out (R125). -/
def Pool.advanceId (p : Pool) : Pool := { p with nextId := p.idAfter p.nextId }

/-- An INJECT_START whose fields are in range (R128, checks 2 to 4, and the acceptance). -/
def State.injectStart (s : State) (e : Port) (total : Nat) (notify : Bool) (fragment : List Byte) :
    Answer × State :=
  let p := s.pool
  let id := p.nextId
  if s.eligible e = false then (Answer.refuse .notInject, s)
  else if p.freeDescriptors = 0 ∨ p.freeBlocks < blocksFor total then (Answer.refuse .noSpace, s)
  else if fragment.length = total then
    let q := (p.take total).enqueue e { id := id, notify := notify, bytes := fragment }
    (Answer.ok (halfBytes id ++ [absent]), s.setPool q.advanceId)
  else
    match p.freeContext with
    | none => (Answer.refuse .noAssembly, s)
    | some k =>
      let q := (p.take total).setContext k
        (some { target := e, id := id, total := total, notify := notify, bytes := fragment
                lastFragment := s.timeBase, timer := assemblyCt })
      (Answer.ok (halfBytes id ++ [natByte k.val]), s.setPool q.advanceId)

/-- A fragment length the executor accepts (R177). -/
def fragmentFits (fragment : List Byte) : Bool :=
  decide (1 ≤ fragment.length) && decide (fragment.length ≤ 240)

def injectStartRequest (m : Message) (s : State) : Answer × State :=
  match m.payload with
  | t :: lh :: ll :: n :: fragment =>
    if fragmentFits fragment then
      let total := (readHalf lh ll).toNat
      match readBelow 16 t, readFlag n with
      | some e, some notify =>
        if total = 0 ∨ 1024 < total ∨ total < fragment.length then (Answer.refuse .badField, s)
        else s.injectStart e total notify fragment
      | _, _ => (Answer.refuse .badField, s)
    else (Answer.refuse .badLength, s)
  | _ => (Answer.refuse .badLength, s)

def execInjectStart (s : State) : Result :=
  .next (s.execute (fun k => decide (k = 0x60)) injectStartRequest)

/-! ### INJECT_CONT (R129, R130) -/

/-- The fragment is stored in OPEN context `k` (R129): the assembly goes on, or the frame is complete and
queued (R130). -/
def State.injectStore (s : State) (k : ContextId) (c : Context) (fragment : List Byte) :
    Answer × State :=
  let bytes := c.bytes ++ fragment
  let report := halfBytes c.id ++ natHalf bytes.length
  if bytes.length = c.total then
    (Answer.ok (report ++ [1]),
      s.setPool ((s.pool.setContext k none).enqueue c.target
        { id := c.id, notify := c.notify, bytes := bytes }))
  else
    (Answer.ok (report ++ [0]),
      s.setPool (s.pool.setContext k
        (some { c with bytes := bytes, lastFragment := s.timeBase, timer := assemblyCt })))

def injectContRequest (m : Message) (s : State) : Answer × State :=
  match m.payload with
  | k :: oh :: ol :: fragment =>
    if fragmentFits fragment then
      match readBelow 2 k with
      | none => (Answer.refuse .badField, s)
      | some ctx =>
        match s.pool.contexts[ctx] with
        | none => (Answer.refuse .wrongState, s)
        | some c =>
          if (readHalf oh ol).toNat ≠ c.bytes.length ∨ c.total < c.bytes.length + fragment.length then
            ({ status := .fragmentOrder, result := natHalf c.bytes.length, restart := false }, s)
          else s.injectStore ctx c fragment
    else (Answer.refuse .badLength, s)
  | _ => (Answer.refuse .badLength, s)

def execInjectCont (s : State) : Result :=
  .next (s.execute (fun k => decide (k = 0x61)) injectContRequest)

/-! ### Ending an assembly (R131, R132) -/

/-- OPEN context `k` becomes FREE, its descriptor and blocks free again. -/
def Pool.freeUp (p : Pool) (k : ContextId) (c : Context) : Pool :=
  (p.setContext k none).giveBack 1 c.blocks

/-- INJECT_ABORT (R131). -/
def injectAbortRequest (m : Message) (s : State) : Answer × State :=
  match m.payload with
  | [k] =>
    match readBelow 2 k with
    | none => (Answer.refuse .badField, s)
    | some ctx =>
      match s.pool.contexts[ctx] with
      | none => (Answer.refuse .wrongState, s)
      | some c =>
        (Answer.ok (halfBytes c.id ++ natHalf c.bytes.length), s.setPool (s.pool.freeUp ctx c))
  | _ => (Answer.refuse .badLength, s)

def execInjectAbort (s : State) : Result :=
  .next (s.execute (fun k => decide (k = 0x62)) injectAbortRequest)

/-- ASSEMBLY_TIMEOUT (R132). -/
def execAssemblyTimeout (k : ContextId) (s : State) : Result :=
  .next (s.event s.pool.contexts[k].isSome fun t =>
    match t.pool.contexts[k] with
    | none => t
    | some c =>
      (t.setPool (t.pool.freeUp k c)).notify (.assemblyTimeout c.target c.id c.bytes.length))

/-! ### POOL_STATUS (R138, R182) -/

/-- The five bytes of an egress. -/
def State.viewRecord (s : State) (e : Port) : List Byte :=
  let v := s.pool.views[e]
  [flagByte (s.eligible e), natByte v.queue.length] ++ presentHalf (v.sending.map fun f => f.frame.id)

/-- Whole milliseconds since a fragment, by the time base; at most 499, for the assembly timer ends at 500
(R182, log entry 22). -/
def sinceFragment (now last : Word32) : Nat := min 499 ((now - last).toNat / 1000)

/-- The eleven bytes of a context (R182). -/
def contextRecord (now : Word32) : Option Context → List Byte
  | none => [0, absent, 0, 0, 0, 0, 0, 0, 0, 0, 0]
  | some c =>
    [1, natByte c.target.val] ++ halfBytes c.id ++ natHalf c.total ++ natHalf c.bytes.length
      ++ [natByte c.blocks] ++ natHalf (sinceFragment now c.lastFragment)

/-- The POOL_STATUS result (R182). -/
def State.poolStatusResult (s : State) : List Byte :=
  [natByte s.pool.freeBlocks, natByte s.pool.freeDescriptors] ++ halfBytes s.pool.nextId
    ++ allPorts.flatMap s.viewRecord
    ++ s.pool.contexts.toList.flatMap (contextRecord s.timeBase)

def poolStatusRequest (m : Message) (s : State) : Answer × State :=
  match m.payload with
  | [] => (Answer.ok s.poolStatusResult, s)
  | _ :: _ => (Answer.refuse .badLength, s)

def execPoolStatus (s : State) : Result :=
  .next (s.execute (fun k => decide (k = 0x63)) poolStatusRequest)

/-! ### Sending (R134, R135) -/

/-- A frame may start on `e` (R134): STEADY on INJECT, no frame in progress, the gap over, the queue not
empty. -/
def State.frameMayStart (s : State) (e : Port) : Bool :=
  let v := s.pool.views[e]
  decide (s.egresses[e].state = .steady) && decide (s.egresses[e].current = .inject)
    && v.sending.isNone && decide (v.gap = 8) && !v.queue.isEmpty

/-- The head frame of `e` starts, and the view offers its OPEN. -/
def State.startFrame (s : State) (e : Port) : State :=
  let v := s.pool.views[e]
  match v.queue with
  | [] => s
  | f :: rest =>
    let w : View :=
      { queue := rest, sending := some { frame := f, sent := 0, shutDue := false }, gap := 0
        startDue := false }
    (s.setPool (s.pool.setView e w)).setEgress e (s.egresses[e].receive .inject .opn)

/-- INJECT_FRAME_START (R134).  DESIGN CHOICE (log entry 35): one that is commanded while the conditions of R134 hold
is taken at once though the view has offered the FILL of this character time, so FILL and OPEN share it; `startDue`
is asked of the part's own frame starts alone. -/
def execInjectFrameStart (e : Port) (s : State) : Result :=
  .next (s.event (s.frameMayStart e) fun t => t.startFrame e)

/-- The SHUT of the frame SENDING on `e` is due on an egress that still carries the frame (R135). -/
def State.shutReady (s : State) (e : Port) : Bool :=
  (s.pool.views[e].sending.any fun f => f.shutDue) && decide (s.egresses[e].current = .inject)
    && (decide (s.egresses[e].state = .steady) || decide (s.egresses[e].state = .draining))

/-- The SHUT is sent (R135); in a drain it ends the drain too (R37, R44). -/
def State.sendShut (s : State) (e : Port) : State :=
  match s.egresses[e].change with
  | some _ => s.endDrain e .shut
  | none => (s.setEgress e { s.egresses[e] with line := some .shut, inside := false }).injectSent e

/-- INJECT_FRAME_SENT (R135). -/
def execInjectFrameSent (e : Port) (s : State) : Result :=
  .next (s.event (s.shutReady e) fun t => t.sendShut e)

end Sys2Proof.Machine
end

