-- ==== Sys2Proof/Machine/Clock.lean ====
section
/-! DEFINITION. What the part does while no command waits: the events that are due in this character
time, and the passing of one character time when none is (log entry 5). -/

namespace Sys2Proof.Machine

/-! ### One character time -/

/-- The character a source with no state of its own, or none, gives an egress in a new character time:
nothing while OFF (R120), FILL while JOINING (R38) and from the FILL source (R111). -/
def Egress.newTime (g : Egress) : Egress :=
  match g.state with
  | .off => { g with line := none }
  | .joining => { g with line := some .fill }
  | .steady => if g.current = .fill then { g with line := some .fill } else g
  | .draining => g

def Ingress.newTime (g : Ingress) : Ingress :=
  { g with
    sdLoss := tickTimer g.sdLoss
    traffic := tickTimer g.traffic
    window := g.window.map fun w => { w with pos := w.pos + 1 }
    readDue := true }

def GuardState.newTime : GuardState → GuardState
  | .holdoff left => .holdoff (left - 1)
  | .restoreWait left => .restoreWait (left - 1)
  | .watching => .watching
  | .primaryDown => .primaryDown
  | .onStandby => .onStandby
  | .locked => .locked
  | .forced => .forced
  | .suspended sel o => .suspended sel o
  | .suspendedFired => .suspendedFired

def Membership.newTime : Membership → Membership
  | .member (.released q) => .member (.released (tickTimer q))
  | .member (.hold left) => .member (.hold (left - 1))
  | .member .lowIdle => .member .lowIdle
  | .member .lowWait => .member .lowWait
  | .unset => .unset
  | .nonMember => .nonMember

def Qualifier.newTime : Qualifier → Qualifier
  | .qualifying left => .qualifying (left - 1)
  | .low => .low
  | .high => .high

/-- The generator in a new character time, with the character it offers; none at a frame start, whose
event decides it (R114, R115). -/
def Pattern.newTime (g : Pattern) : Pattern × Option Character :=
  match g.phase with
  | .idle => if g.enable then ({ g with startDue := true }, none) else (g, some .fill)
  | .frame seq length gap pos =>
    if pos < length then
      ({ g with phase := .frame seq length gap (pos + 1) }, some (.data (patternByte seq pos)))
    else if pos = length then ({ g with phase := .frame seq length gap (pos + 1) }, some .shut)
    else ({ g with phase := .gap seq length gap 1 }, some .fill)
  | .gap seq length gap pos =>
    if pos < gap then ({ g with phase := .gap seq length gap (pos + 1) }, some .fill)
    else ({ g with startDue := true }, none)

/-- The INJECT view of `e` in a new character time (R134): FILL with the gap count, or a frame start
due, or the next character of the frame SENDING. -/
def State.viewNewTime (s : State) (e : Port) : State :=
  let v := s.pool.views[e]
  let g := s.egresses[e]
  match v.sending with
  | none =>
    if s.frameMayStart e then s.setPool (s.pool.setView e { v with startDue := true })
    else
      (s.setPool (s.pool.setView e { v with gap := min 8 (v.gap + 1), startDue := false })).setEgress e
        (g.receive .inject .fill)
  | some f =>
    match f.frame.bytes[f.sent]? with
    | some b =>
      let h := g.receive .inject (.data b)
      if h.held.isSome then s.setEgress e h
      else
        (s.setPool (s.pool.setView e { v with sending := some { f with sent := f.sent + 1 } })).setEgress
          e h
    | none =>
      let t := s.setPool (s.pool.setView e { v with sending := some { f with shutDue := true } })
      if g.state = .draining then t.setEgress e (g.receive .inject .shut) else t

/-- The clocks and timers of the part one character time later (section 0.7, R170). -/
def State.clocksNewTime (s : State) : State :=
  { s with
    subMicro := if 99 ≤ s.subMicro then 0 else s.subMicro + 1
    timeBase := if 99 ≤ s.subMicro then s.timeBase + 1 else s.timeBase
    ports := s.ports.map Ingress.newTime
    egresses := s.egresses.map Egress.newTime
    guards := s.guards.map fun g => g.map fun r : Guard => { r with state := r.state.newTime }
    plans := s.plans.map fun p => p.map fun q : Plan => { q with timer := tickTimer q.timer }
    group :=
      { s.group with
        membership := s.group.membership.newTime
        faultTimer := tickTimer s.group.faultTimer }
    pool :=
      { s.pool with
        contexts := s.pool.contexts.map fun c =>
          c.map fun x : Context => { x with timer := x.timer - 1 } }
    senses := s.senses.map fun k : Sense => { k with qualifier := k.qualifier.newTime }
    link :=
      { s.link with
        gapTimer := tickTimer s.link.gapTimer
        mtx := s.link.mtx.map fun m : Sending => { m with left := m.left - 1 } } }

/-- The generator's new character offered to every selector on PATTERN (R119). -/
def State.patternNewTime (s : State) : State :=
  let r := s.pattern.newTime
  match r.2 with
  | some c => (s.setPattern r.1).offer .pattern c
  | none => s.setPattern r.1

/-- One character time passes (log entry 5).  During a restart only its 20 us run, and during a hardware
reset nothing does. -/
def State.newTime (s : State) : State :=
  match s.phase with
  | .run => allPorts.foldl State.viewNewTime s.clocksNewTime.patternNewTime
  | .restart left => { s with phase := .restart (left - 1) }
  | .hardwareReset _ => s

/-! ### The events that are due -/

/-- The events of a list whose condition holds. -/
def dueOf (xs : List (Bool × Instr)) : List Instr := (xs.filter fun x => x.1).map fun x => x.2

/-- A timer has run out. -/
def ranOut (t : Option Nat) : Bool := decide (t = some 0)

/-- A qualification has run its 2 us. -/
def Group.qualificationOver (g : Group) : Bool := decide (g.membership = .member (.released (some 0)))

/-- The executor's event for a request of this kind (R163, R173). -/
def requestCommand (kind : Byte) : Instr :=
  if kind = 0x01 then .echo else if kind = 0x02 then .status else if kind = 0x03 then .restart
  else if kind = 0x10 then .setFraming else if kind = 0x11 then .setPort
  else if kind = 0x12 then .portStatus else if kind = 0x20 then .connect
  else if kind = 0x21 then .mapRead else if kind = 0x22 then .guardControl
  else if kind = 0x30 then .planLoad else if kind = 0x31 then .planArm
  else if kind = 0x32 then .planFire else if kind = 0x33 then .planCancel false
  else if kind = 0x34 then .planRead else if kind = 0x35 then .planRelease
  else if kind = 0x40 then .groupConfig else if kind = 0x41 then .groupStatus
  else if kind = 0x50 then .patternConfig else if kind = 0x60 then .injectStart
  else if kind = 0x61 then .injectCont else if kind = 0x62 then .injectAbort
  else if kind = 0x63 then .poolStatus else if kind = 0x70 then .conditionsRead
  else if kind = 0x71 then .conditionsClear else if kind = 0x72 then .subscribe
  else .unknownRequestKind

/-- The link's events; a cancel that meets the end of a qualification has its third outcome too (R107). -/
def State.linkDue (s : State) : List Instr :=
  dueOf [(ranOut s.link.gapTimer, .gapTimerExpiry), (ranOut (s.link.mtx.map fun m => m.left), .sendComplete)]
    ++ match s.executorHead with
      | none => []
      | some m =>
        requestCommand m.kind :: dueOf [(decide (m.kind = 0x33) && s.group.qualificationOver, .planCancel true)]

/-- The frames that a source of the part's own starts or ends in this character time have done so: the generator's
(R115), and the INJECT views' (R134, R135). -/
def State.framesSettled (s : State) : Bool :=
  !s.pattern.startDue
    && allPorts.all fun e => !(s.pool.views[e].startDue && s.frameMayStart e) && !s.shutReady e

/-- The read of ingress `p` is the last one of the character time, and MARK events wait for it or it gives one:
the fire comes with it (R81; log entry 34). -/
def State.readFires (s : State) (p : Port) : Bool :=
  (allPorts.all fun q => decide (q = p) || !s.ports[q].readDue)
    && ((allPorts.any fun q => s.ports[q].markDue)
      || decide ((s.ports[p].readOnce s.maxframe).event = .mark))

/-- The read of ingress `p` is due: one that a fire comes with waits for every other character of its character
time (R81; log entry 34). -/
def State.readIsDue (s : State) (p : Port) : Bool :=
  s.ports[p].readDue && s.sourceOpen (.ingress p) && (!s.readFires p || s.framesSettled)

/-- The events of ingress `p`. -/
def State.portDue (s : State) (p : Port) : List Instr :=
  let g := s.ports[p]
  dueOf
    [(ranOut g.sdLoss, .sdLossTimerExpiry p),
     (g.window.any fun w => decide (windowCt ≤ w.pos), .noiseWindowEnd p),
     (ranOut g.traffic, .trafficTimerExpiry p),
     (s.readIsDue p, .trackerRead p)]

/-- A drain whose deadline has run out with a character of the old source waiting (R39). -/
def Egress.deadlineDue (g : Egress) : Bool :=
  decide (g.state = .draining) && g.held.isSome && g.change.any fun c => decide (c.deadline = some 0)

/-- The events of egress `e`, of its guard and of its INJECT view. -/
def State.egressDue (s : State) (e : Port) : List Instr :=
  let g := s.egresses[e]
  dueOf
    [(g.terminatorDue && decide (g.current ≠ .inject), .drainEnd e),
     (g.deadlineDue, .deadlineExpiry e),
     (g.planSettle.isSome, .editSettle e),
     (decide (s.guards[e].map (fun r => r.state) = some (.holdoff 0))
        && g.entry.guard.isSome, .holdOffExpiry e),
     (decide (s.guards[e].map (fun r => r.state) = some (.restoreWait 0))
        && g.entry.guard.isSome, .waitToRestoreExpiry e),
     (s.pool.views[e].startDue && s.frameMayStart e, .injectFrameStart e),
     (s.shutReady e, .injectFrameSent e)]

/-- The expiry of the plan in slot `k`; a group wait that meets the end of a qualification has its third
outcome too (R106). -/
def State.planDue (s : State) (k : SlotId) : List Instr :=
  let out := s.plans[k].any fun p => ranOut p.timer
  dueOf
    [(out && s.waits k false, .armExpiry k),
     (out && s.waits k true, .groupWaitExpiry k false),
     (out && s.waits k true && s.group.qualificationOver, .groupWaitExpiry k true)]

/-- The events of the blocks the part has once. -/
def State.blockDue (s : State) : List Instr :=
  dueOf
      [(s.group.qualificationOver, .qualificationComplete),
       (decide (s.group.membership = .member (.hold 0)), .holdExpiry),
       (ranOut s.group.faultTimer, .faultTimerExpiry),
       (s.pattern.startDue && s.sourceOpen .pattern, .patternFrameStart)]
    ++ dueOf (allContexts.map fun k =>
        (s.pool.contexts[k].any fun c => decide (c.timer = 0), .assemblyTimeout k))
    ++ dueOf (allSenses.map fun n =>
        (decide (s.senses[n].qualifier = .qualifying 0), .senseQualified n))

/-- The joins that complete (R38), at the first moment their target is between frames: before any other
event. -/
def State.joinsDue (s : State) : List Instr :=
  dueOf (allPorts.map fun e => (s.joinReady e, .joinComplete e))

/-- The part's own events that are due now.  Those named together come together, and either may be taken
first (log entry 2). -/
def State.dueCommands (s : State) : List Instr :=
  match s.phase with
  | .hardwareReset _ => []
  | .restart left => if left = 0 then [.restartEnd s.strapPins] else []
  | .run =>
    if s.joinsDue.isEmpty then
      s.linkDue ++ allPorts.flatMap s.portDue ++ allPorts.flatMap s.egressDue
        ++ allSlots.flatMap s.planDue ++ s.blockDue
    else s.joinsDue

/-- The event taken next, and the count of draws after choosing it; a choice is drawn only between two or
more (log entry 2). -/
def State.nextDue (s : State) : Option (Instr × Nat) :=
  match s.dueCommands with
  | [] => none
  | [c] => some (c, s.draws)
  | c :: d :: rest =>
    some (((c :: d :: rest)[Config.freeChoice s.draws % (rest.length + 2)]?).getD c, s.draws + 1)

end Sys2Proof.Machine
end

