-- ==== Sys2Proof/Machine/Dispatch.lean ====
section
/-! DEFINITION. One arm per command: the meaning it has. -/

namespace Sys2Proof.Machine

def exec (i : Instr) (s : State) : Host.Outcome State Fault Refusal :=
  match i with
  | .hardwareReset cause tepHigh => Sys2Proof.Machine.execHardwareReset cause tepHigh s
  | .hardwareResetEnd inputs => Sys2Proof.Machine.execHardwareResetEnd inputs s
  | .restartEnd straps => Sys2Proof.Machine.execRestartEnd straps s
  | .requestArrival kind tag payload => Sys2Proof.Machine.execRequestArrival kind tag payload s
  | .checkFailure => Sys2Proof.Machine.execCheckFailure s
  | .lenOutOfRange len => Sys2Proof.Machine.execLenOutOfRange len s
  | .gapTimerExpiry => Sys2Proof.Machine.execGapTimerExpiry s
  | .unknownRequestKind => Sys2Proof.Machine.execUnknownRequestKind s
  | .echo => Sys2Proof.Machine.execEcho s
  | .status => Sys2Proof.Machine.execStatus s
  | .restart => Sys2Proof.Machine.execRestart s
  | .setFraming => Sys2Proof.Machine.execSetFraming s
  | .setPort => Sys2Proof.Machine.execSetPort s
  | .portStatus => Sys2Proof.Machine.execPortStatus s
  | .connect => Sys2Proof.Machine.execConnect s
  | .mapRead => Sys2Proof.Machine.execMapRead s
  | .guardControl => Sys2Proof.Machine.execGuardControl s
  | .planLoad => Sys2Proof.Machine.execPlanLoad s
  | .planArm => Sys2Proof.Machine.execPlanArm s
  | .planFire => Sys2Proof.Machine.execPlanFire s
  | .planCancel qualifiedFirst => Sys2Proof.Machine.execPlanCancel qualifiedFirst s
  | .planRead => Sys2Proof.Machine.execPlanRead s
  | .planRelease => Sys2Proof.Machine.execPlanRelease s
  | .groupConfig => Sys2Proof.Machine.execGroupConfig s
  | .groupStatus => Sys2Proof.Machine.execGroupStatus s
  | .patternConfig => Sys2Proof.Machine.execPatternConfig s
  | .injectStart => Sys2Proof.Machine.execInjectStart s
  | .injectCont => Sys2Proof.Machine.execInjectCont s
  | .injectAbort => Sys2Proof.Machine.execInjectAbort s
  | .poolStatus => Sys2Proof.Machine.execPoolStatus s
  | .conditionsRead => Sys2Proof.Machine.execConditionsRead s
  | .conditionsClear => Sys2Proof.Machine.execConditionsClear s
  | .subscribe => Sys2Proof.Machine.execSubscribe s
  | .sendComplete => Sys2Proof.Machine.execSendComplete s
  | .sdDeassert p => Sys2Proof.Machine.execSdDeassert p s
  | .sdAssert p => Sys2Proof.Machine.execSdAssert p s
  | .sdLossTimerExpiry p => Sys2Proof.Machine.execSdLossTimerExpiry p s
  | .characterReceived p c realigned => Sys2Proof.Machine.execCharacterReceived p c realigned s
  | .trackerRead p => Sys2Proof.Machine.execTrackerRead p s
  | .noiseWindowEnd p => Sys2Proof.Machine.execNoiseWindowEnd p s
  | .trafficTimerExpiry p => Sys2Proof.Machine.execTrafficTimerExpiry p s
  | .drainEnd e => Sys2Proof.Machine.execDrainEnd e s
  | .deadlineExpiry e => Sys2Proof.Machine.execDeadlineExpiry e s
  | .joinComplete e => Sys2Proof.Machine.execJoinComplete e s
  | .editSettle e => Sys2Proof.Machine.execEditSettle e s
  | .armExpiry slot => Sys2Proof.Machine.execArmExpiry slot s
  | .groupWaitExpiry slot qualifiedFirst => Sys2Proof.Machine.execGroupWaitExpiry slot qualifiedFirst s
  | .holdOffExpiry e => Sys2Proof.Machine.execHoldOffExpiry e s
  | .waitToRestoreExpiry e => Sys2Proof.Machine.execWaitToRestoreExpiry e s
  | .grdyLevelChange high => Sys2Proof.Machine.execGrdyLevelChange high s
  | .qualificationComplete => Sys2Proof.Machine.execQualificationComplete s
  | .holdExpiry => Sys2Proof.Machine.execHoldExpiry s
  | .faultTimerExpiry => Sys2Proof.Machine.execFaultTimerExpiry s
  | .patternFrameStart => Sys2Proof.Machine.execPatternFrameStart s
  | .injectFrameStart e => Sys2Proof.Machine.execInjectFrameStart e s
  | .injectFrameSent e => Sys2Proof.Machine.execInjectFrameSent e s
  | .assemblyTimeout k => Sys2Proof.Machine.execAssemblyTimeout k s
  | .senseRise n => Sys2Proof.Machine.execSenseRise n s
  | .senseFall n => Sys2Proof.Machine.execSenseFall n s
  | .senseQualified n => Sys2Proof.Machine.execSenseQualified n s
  | .byteReceived b framingError => Sys2Proof.Machine.execByteReceived b framingError s

end Sys2Proof.Machine
end

