-- ==== Sys2Proof/Machine/Step.lean ====
section
/-! DEFINITION. One step of the block: the command at the front of the queue; on an empty queue the
part's own next event, or one character time (log entry 5). -/

namespace Sys2Proof.Machine

/-- One step.  A waiting command leaves the queue and runs on the state with the queue's rest. -/
def step (s : State) : Host.Outcome State Fault Refusal :=
  match s.pending with
  | c :: rest => exec c { s with pending := rest }
  | [] =>
    match s.nextDue with
    | some (c, draws) => exec c (s.setDraws draws)
    | none => .next s.newTime

/-- The command a word spells put at the front of the queue; no word spells one (log entry 3). -/
def State.withFetchWord (s : State) (nbits w : Nat) : State :=
  match decodeTableWord nbits w with
  | some c => { s with pending := c :: s.pending }
  | none => s

end Sys2Proof.Machine
end

