-- ==== Sys2Proof/Safety.lean ====
section
/-! DEFINITION. The properties that every step keeps: what the manual says is so at all times. -/

namespace Sys2Proof.Machine

/-- "The latch is therefore set exactly while the count is 1 or more" (R140). -/
def State.LatchesAgree (s : State) : Prop :=
  ∀ c : CondId, s.conds[c].latch = true ↔ s.conds[c].count ≠ 0

/-- The stores keep to their size: 32 notices (R148), 4 requests (R161), 6 reply entries (R162). -/
def State.StoresBounded (s : State) : Prop :=
  s.notices.entries.length ≤ 32 ∧ s.link.intake.length ≤ 4 ∧ s.link.replies ≤ 6

/-- How many CONDITION notices for `c` stand in a queue. -/
def NoticeQueue.countFor (q : NoticeQueue) (c : CondId) : Nat :=
  q.entries.countP fun n => decide (n.body = .condition c)

/-- A condition's pending mark is present while one CONDITION notice for it stands in the queue, and there
are never two (R139, R141, R148). -/
def State.MarksAgree (s : State) : Prop :=
  ∀ c : CondId, s.notices.countFor c = if s.conds[c].pending then 1 else 0

/-- The blocks and the descriptors that a view holds. -/
def View.blocks (v : View) : Nat :=
  (v.queue.map Frame.blocks).sum + ((v.sending.map fun f => f.frame.blocks).getD 0)

def View.frames (v : View) : Nat := v.queue.length + (if v.sending.isSome then 1 else 0)

/-- The blocks of QUEUED and SENDING frames and those reserved by OPEN contexts (R124). -/
def Pool.heldBlocks (p : Pool) : Nat :=
  (p.views.toList.map View.blocks).sum
    + (p.contexts.toList.map fun c => (c.map Context.blocks).getD 0).sum

/-- The descriptors QUEUED, SENDING or reserved by an OPEN context (R124). -/
def Pool.heldDescriptors (p : Pool) : Nat :=
  (p.views.toList.map View.frames).sum
    + (p.contexts.toList.map fun c => if c.isSome then 1 else 0).sum

/-- The 128 blocks and the 32 descriptors are divided without overlap or loss (R124). -/
def State.PoolConserved (s : State) : Prop :=
  s.pool.freeBlocks + s.pool.heldBlocks = 128
    ∧ s.pool.freeDescriptors + s.pool.heldDescriptors = 32

/-- A character held back while a drain ends: the terminator, or DATA once the deadline has run out (R37,
R39; log entry 24).  The INJECT view keeps its own place. -/
def Egress.HeldOk (g : Egress) : Prop :=
  ∀ c, g.held = some c →
    (isTerminator c = true ∨ ∃ v, c = .data v)
    ∧ (g.current ≠ .inject → isTerminator c = true ∨ g.change.bind (fun ch => ch.deadline) = some 0)

/-- A selector as the table of section 2.2 has it: what its state says of its frame position, its change
in flight and its current source (R30, R32). -/
def Egress.Wf (g : Egress) : Prop :=
  match g.state with
  | .off => g.inside = false ∧ g.change = none ∧ g.current = .hold ∧ g.held = none
  | .joining => g.inside = false ∧ g.change.isSome ∧ g.held = none
  | .steady => g.change = none ∧ g.current ≠ .hold ∧ g.held = none
  | .draining => g.inside = true ∧ g.change.isSome ∧ g.current ≠ .hold ∧ g.HeldOk

def State.SelectorsWf (s : State) : Prop := ∀ e : Port, s.egresses[e].Wf

/-- The character last sent on an egress line agrees with its frame position (R30): INSIDE after OPEN and
DATA, OUTSIDE after a terminator, FILL or MARK and where nothing has been sent; a VIOLATION is never sent. -/
def Egress.LineAgrees (g : Egress) : Prop :=
  match g.line with
  | none => g.inside = false
  | some .opn => g.inside = true
  | some (.data _) => g.inside = true
  | some .shut => g.inside = false
  | some .abort => g.inside = false
  | some .fill => g.inside = false
  | some .mark => g.inside = false
  | some .violation => False

/-- The guard unit keeps a record for exactly the egresses whose entry has a guard (R52, section 3.1). -/
def State.GuardsMatch (s : State) : Prop :=
  ∀ e : Port, s.guards[e].isSome = s.egresses[e].entry.guard.isSome

/-- Every entry record in force or stored in a plan is valid (R26). -/
def State.EntriesValid (s : State) : Prop :=
  (∀ e : Port, s.egresses[e].entry.valid = true)
    ∧ ∀ (k : SlotId) (p : Plan), s.plans[k] = some p → ∀ d ∈ p.edits, d.entry.valid = true

/-- An ingress: the elastic buffer holds at most 32 characters (R10); in DARK and HUNT it is empty, no
window or traffic timer runs and the tracker is OUTSIDE (R1, R3, R19); else a window runs (R5) and the
violation run is below 4 (R3).  An ABORT is owed only by a tracker that has gone to OUTSIDE (R19). -/
def Ingress.Wf (g : Ingress) : Prop :=
  g.level ≤ 32
    ∧ (g.line.delivering = false →
        g.buffer = [] ∧ g.window = none ∧ g.traffic = none ∧ g.tracker = .outside)
    ∧ (g.line.delivering = true → g.window.isSome ∧ g.violationRun < 4)
    ∧ (g.abortDue = true → g.tracker = .outside)

def State.IngressesWf (s : State) : Prop := ∀ p : Port, s.ports[p].Wf

/-- No two slots carry the same plan id (R70). -/
def State.PlanIdsDistinct (s : State) : Prop :=
  ∀ (j k : SlotId) (p q : Plan), s.plans[j] = some p → s.plans[k] = some q → p.id = q.id → j = k

/-- A plan that has not fired has no outcome (R71), and its edits name different egresses (R73). -/
def Plan.Wf (p : Plan) : Prop :=
  (p.edits.map (·.egress)).Nodup
    ∧ (p.state ≠ .applying → p.state ≠ .done → ∀ d ∈ p.edits, d.outcome = none)

/-- Every claim belongs to an ARMED or APPLYING plan, for an egress that it edits and whose edit has not
settled (R74). -/
def State.ClaimHeld (s : State) (e : Port) (id : Byte) : Prop :=
  ∃ (k : SlotId) (p : Plan), s.plans[k] = some p ∧ p.id = id
    ∧ (p.state = .armed ∨ p.state = .applying)
    ∧ ∃ d ∈ p.edits, d.egress = e ∧ d.outcome = none

/-- The plan table and the claim map agree (R70, R71, R73, R74). -/
def State.ClaimsHeld (s : State) : Prop :=
  s.PlanIdsDistinct
    ∧ (∀ (k : SlotId) (p : Plan), s.plans[k] = some p → p.Wf)
    ∧ ∀ (e : Port) (id : Byte), s.claims[e] = some id → s.ClaimHeld e id

/-- An egress is in step with its source: in STEADY it is INSIDE exactly while its source is in a frame,
and so it is in DRAINING until it holds back the old source's next character (R29, R30). -/
def State.InStep (s : State) (e : Port) : Prop :=
  let g := s.egresses[e]
  match g.state with
  | .off => True
  | .joining => True
  | .steady => g.inside = !s.betweenFrames e g.current
  | .draining =>
    match g.held with
    | none => s.betweenFrames e g.current = false
    | some c =>
      s.betweenFrames e g.current = (decide (g.current ≠ .inject) && isTerminator c)

/-- A frame start is due only while the generator is between frames (R115). -/
def Pattern.Wf (g : Pattern) : Prop := g.startDue = true → g.betweenFrames = true

/-- The stream of every egress is well formed (R30): its selector is as section 2.2 has it, the character it
has sent agrees with its frame position, and it is in step with its source; and the ingresses and the
generator are well formed too (R14, R19, R114). -/
def State.StreamsWf (s : State) : Prop :=
  s.SelectorsWf ∧ s.IngressesWf ∧ s.pattern.Wf ∧ ∀ e : Port, s.InStep e ∧ s.egresses[e].LineAgrees

/-- A MARK event waits only while some ingress has its read of the character time still to make (R81; log entry
34). -/
def State.MarksWait (s : State) : Prop :=
  ∀ p : Port, s.ports[p].markDue = true → ∃ q : Port, s.ports[q].readDue = true

/-! ### Words of the statements -/

/-- A link with the reply buffer and the message on MTX of `m`: what the arbiter can change of it (R166). -/
def Link.withSending (l m : Link) : Link :=
  { l with refusals := m.refusals, executed := m.executed, mtx := m.mtx }

/-- The executor can take `m`, with `rest` behind it in the intake queue (R163), its kind being `kind`. -/
def State.CanTake (s : State) (m : Message) (rest : List Message) (kind : Byte) : Prop :=
  s.phase = .run ∧ s.link.restartPending = false ∧ s.link.replies < 6
    ∧ s.link.intake = m :: rest ∧ m.kind = kind

/-- The head of the intake queue has been taken, `rest` being left (R163, step 1). -/
def State.taken (s : State) (rest : List Message) : State :=
  s.setLink { s.link with intake := rest }

/-- The reply to `m` placed behind the executed replies, and the arbiter's choice (R163 step 4, R166). -/
def State.replied (s : State) (m : Message) (a : Answer) : State := (s.placeReply m a).arbitrate

/-- From `s` to `t` the blocks have done what their lists say, each in the order of its own list, the blocks taking
turns in the order of `turns`, which the free choice may have drawn (R153; log entry 2). -/
def State.TakingTurns : List (State → State) → List (List (State → State)) → State → State → Prop
  | [], blocks, s, t => (∀ b ∈ blocks, b = []) ∧ t = s
  | f :: turns, blocks, s, t =>
    ∃ (k draws : Nat) (rest : List (State → State)), blocks[k]? = some (f :: rest)
      ∧ State.TakingTurns turns (blocks.set k rest) (f (s.setDraws draws)) t

/-- `t` is what the blocks leave that act together in one event (R153): some order of all their doings that keeps
each block's own. -/
def State.Together (s : State) (blocks : List (List (State → State))) (t : State) : Prop :=
  ∃ turns, State.TakingTurns turns blocks s t

/-- The view of an egress once the DATA it had offered last is on its way (R134). -/
def Pool.viewPast (p : Pool) (e : Port) : Pool :=
  p.setView e { p.views[e] with sending := p.views[e].sending.map fun f => { f with sent := f.sent + 1 } }

/-- From `s` to `t` the line of ingress `p` has come to its state in `t`, and every receiver has heard it if
that is a change (R8). -/
def State.LineHeard (s t : State) (p : Port) : Prop :=
  t = (s.setPort p t.ports[p]).announceLine p s.ports[p].line

/-- MTX is busy or nothing waits to be sent: what holds between any two events (R166). -/
def State.ArbiterAtRest (s : State) : Prop :=
  s.link.mtx.isSome
    ∨ (s.link.refusals = [] ∧ s.link.executed = [] ∧ s.notices.entries = [])

/-- What the notices of an event leave of the link and of the conditions that have not occurred (R148, R166): of the
link all but the reply buffer and the message on MTX, and latches, counts and subscriptions.  Where MTX was busy or
nothing waited (R166), the reply buffer and the pending marks stay too, and so does a busy MTX. -/
def State.NoticesOnly (s t : State) (occurred : CondId → Prop) : Prop :=
  t.phase = s.phase
  ∧ t.link = s.link.withSending t.link
  ∧ (∀ c : CondId, ¬ occurred c → t.conds[c] = { s.conds[c] with pending := t.conds[c].pending })
  ∧ (s.phase = .run → s.ArbiterAtRest → t.ArbiterAtRest ∧ t.link = { s.link with mtx := t.link.mtx }
      ∧ ∀ c : CondId, ¬ occurred c → t.conds[c] = s.conds[c])
  ∧ (s.link.mtx.isSome ∨ s.phase ≠ .run → t.link = s.link ∧ ∀ c : CondId, ¬ occurred c → t.conds[c] = s.conds[c])

/-- What a line event of ingress `p` can reach (R8, R51, R102): that ingress, the condition latches of lines
and guards, the group interface, and the egresses whose guards hear it; no other ingress, no entry record, no
egress without a guard, no plan or claim, no setting, and of the link only what a notice starts. -/
def State.LineReach (s t : State) (p : Port) : Prop :=
  t = { s with
        ports := t.ports, egresses := t.egresses, guards := t.guards, pool := t.pool, conds := t.conds
        group := t.group, notices := t.notices, link := t.link, draws := t.draws }
    ∧ (∀ q : Port, q ≠ p → t.ports[q] = s.ports[q])
    ∧ (∀ e : Port, t.egresses[e].entry = s.egresses[e].entry)
    ∧ (∀ e : Port, s.guards[e] = none →
        t.egresses[e] = s.egresses[e] ∧ t.guards[e] = none ∧ t.pool.views[e] = s.pool.views[e])
    ∧ s.NoticesOnly t fun c => 4 ≤ c.val ∧ c.val < 36

/-- The state a command answers with. -/
def afterCommand (i : Instr) (s : State) : State :=
  match exec i s with
  | .next t => t
  | .fault _ => s
  | .refused _ => s

/-- The bytes of a message delivered one after the other, none with a framing error (R157). -/
def State.feed (s : State) (bytes : List Byte) : State :=
  bytes.foldl (fun t b => afterCommand (.byteReceived b false) t) s

/-- A property is kept by every step. -/
def KeptByStep (inv : State → Prop) : Prop :=
  ∀ s t : State, inv s → step s = .next t → inv t

end Sys2Proof.Machine
end

