-- ==== Sys2Proof/Certificates/Slice0/Obligations.lean ====
section
/-! DEFINITION. The statements about the model, for the provers. -/

open Sys2Proof Sys2Proof.Machine

/-! ### Steps and resets -/

/-- Asked for a block: a step with a command at the front of the queue is the command's meaning on the
state with the queue's rest. -/
def Obligations.StepRunsTheFrontCommand : Prop :=
  ∀ (c : Instr) (s : State), step { s with pending := c :: s.pending } = exec c s

/-- No command is refused or ends in a fault, and none touches the queue of commands behind it.  That a command
the state does not offer answers next too, changing nothing, is the model's choice (log entry 1): no rule says
what such an event would do. -/
def Obligations.EveryCommandAnswersNextAndKeepsTheQueue : Prop :=
  ∀ (c : Instr) (s : State), ∃ t : State, exec c s = .next t ∧ t.pending = s.pending

/-- Egress `e` has a join due: its target is between frames (R38). -/
def JoinDue (s : State) (e : Port) : Prop :=
  s.egresses[e].state = .joining
    ∧ ∃ ch, s.egresses[e].change = some ch ∧ s.betweenFrames e ch.target = true

/-- The INJECT view of `e` starts a frame in this character time (R134). -/
def FrameStartDue (s : State) (e : Port) : Prop :=
  s.pool.views[e].startDue = true ∧ s.frameMayStart e = true

/-- The INJECT view of `e` ends its frame in this character time (R135). -/
def FrameEndDue (s : State) (e : Port) : Prop :=
  (∃ f, s.pool.views[e].sending = some f ∧ f.shutDue = true) ∧ s.egresses[e].current = .inject
    ∧ (s.egresses[e].state = .steady ∨ s.egresses[e].state = .draining)

/-- The read of ingress `p` is due: it is owed (R10), and no egress holds a character of the ingress back (log entry
24) or is to join it at this moment (R38; log entry 33); the last read of a character time with a MARK event waits for the part's own frame starts and ends (R81; log
entry 34). -/
def ReadIsOwed (s : State) (p : Port) : Prop :=
  s.ports[p].readDue = true ∧ s.sourceOpen (.ingress p) = true
    ∧ ((∃ q : Port, s.ports[q].markDue = true) ∨ (s.ports[p].readOnce s.maxframe).event = .mark →
      (∀ q : Port, q ≠ p → s.ports[q].readDue = false) →
      s.pattern.startDue = false ∧ ∀ e : Port, ¬ FrameStartDue s e ∧ ¬ FrameEndDue s e)

/-- The events due while the part runs and no join is: the expiry of a timer exactly when its count has come to 0,
NOISE_WINDOW_END when the window has run its 4096 character times (R5), a TRACKER_READ when a read is owed (R10), a
drain's end or deadline with its character held back (R37, R39), a settle, frame start or frame end that waits, and
the row of the request at the head of the intake queue when the executor can take it (R163).  A cancel and a group
wait that meet the end of a qualification have their third outcome too (R106, R107; log entry 13). -/
def DueInRun (s : State) (c : Instr) : Prop :=
  match c with
  | .gapTimerExpiry => s.link.gapTimer = some 0
  | .sendComplete => ∃ m : Sending, s.link.mtx = some m ∧ m.left = 0
  | .sdLossTimerExpiry p => s.ports[p].sdLoss = some 0
  | .noiseWindowEnd p => ∃ w : Window, s.ports[p].window = some w ∧ 4096 ≤ w.pos
  | .trafficTimerExpiry p => s.ports[p].traffic = some 0
  | .trackerRead p => ReadIsOwed s p
  | .drainEnd e => s.egresses[e].state = .draining ∧ s.egresses[e].current ≠ .inject
      ∧ (s.egresses[e].held = some .shut ∨ s.egresses[e].held = some .abort)
  | .deadlineExpiry e => s.egresses[e].state = .draining ∧ s.egresses[e].held ≠ none
      ∧ ∃ ch, s.egresses[e].change = some ch ∧ ch.deadline = some 0
  | .editSettle e => s.egresses[e].planSettle ≠ none
  | .holdOffExpiry e => s.egresses[e].entry.guard ≠ none
      ∧ ∃ r : Guard, s.guards[e] = some r ∧ r.state = .holdoff 0
  | .waitToRestoreExpiry e => s.egresses[e].entry.guard ≠ none
      ∧ ∃ r : Guard, s.guards[e] = some r ∧ r.state = .restoreWait 0
  | .armExpiry k => ∃ p : Plan, s.plans[k] = some p ∧ p.state = .armed ∧ p.timer = some 0
      ∧ p.trigger.isGroup = false
  | .groupWaitExpiry k first => ∃ p : Plan, s.plans[k] = some p ∧ p.state = .armed ∧ p.timer = some 0
      ∧ p.trigger.isGroup = true
      ∧ (first = true → s.group.membership = .member (.released (some 0)))
  | .qualificationComplete => s.group.membership = .member (.released (some 0))
  | .holdExpiry => s.group.membership = .member (.hold 0)
  | .faultTimerExpiry => s.group.faultTimer = some 0
  | .patternFrameStart => s.pattern.startDue = true ∧ s.sourceOpen .pattern = true
  | .injectFrameStart e => FrameStartDue s e
  | .injectFrameSent e => FrameEndDue s e
  | .assemblyTimeout k => ∃ x : Context, s.pool.contexts[k] = some x ∧ x.timer = 0
  | .senseQualified n => s.senses[n].qualifier = .qualifying 0
  | .planCancel first => (∃ m rest, s.CanTake m rest 0x33)
      ∧ (first = true → s.group.membership = .member (.released (some 0)))
  | c => ∃ m rest, s.CanTake m rest m.kind ∧ c = requestCommand m.kind

/-- The part's own events that are due (the model's choice, log entry 5): a join comes before any other (R38), a
restart ends after its 20 us (R169), and a hardware reset has none. -/
def Due (s : State) (c : Instr) : Prop :=
  match s.phase with
  | .hardwareReset _ => False
  | .restart left => left = 0 ∧ c = .restartEnd s.strapPins
  | .run => (∃ e, c = .joinComplete e ∧ JoinDue s e) ∨ ((∀ e, ¬ JoinDue s e) ∧ DueInRun s c)

/-- On an empty queue (the model's choice, log entries 2 and 5) the step is an event of the part that is due,
the only one or the one that the free choice draws: timers that have come to 0, noise windows of 4096 character
times (R5), owed reads (R10), joins before all else (R38), the request at the head of the intake queue (R163)
and the end of a message on MTX (R166) among them; in a restart its end when the 20 us are over (R169), and
until then they run; in a hardware reset nothing happens.  While the part runs with none due, one character time
passes: the time base counts microseconds of 100 character times (R170), every timer that runs has one character
time less to go (the qualification, hold and fault timers of the group interface (R97) and the 200 ns of a sense
qualifier (R142) among them), each ingress owes one read (R10), the PATTERN generator and then each INJECT view
offer their next character, and the map, claims, conditions, notices, settings and the waiting requests and
replies stay as they are. -/
def Obligations.EmptyQueueTakesADueEventOrPassesTime : Prop :=
  ∀ s : State, s.pending = [] →
    (∀ c, c ∈ s.dueCommands ↔ Due s c)
    ∧ (∀ c, s.dueCommands = [c] → step s = exec c s)
    ∧ (∀ c, 2 ≤ s.dueCommands.length →
        s.dueCommands[Config.freeChoice s.draws % s.dueCommands.length]? = some c →
        step s = exec c (s.setDraws (s.draws + 1)))
    ∧ (s.dueCommands ≠ [] → ∃ c ∈ s.dueCommands, ∃ draws, step s = exec c (s.setDraws draws))
    ∧ (s.dueCommands = [] → ∀ left, s.phase = .restart left →
        step s = .next { s with phase := .restart (left - 1) })
    ∧ (∀ cause, s.phase = .hardwareReset cause → step s = .next s)
    ∧ (s.dueCommands = [] → s.phase = .run → ∃ t : State, step s = .next t
        ∧ t = allPorts.foldl State.viewNewTime s.clocksNewTime.patternNewTime
        ∧ s.clocksNewTime.pattern = s.pattern ∧ s.clocksNewTime.pool.views = s.pool.views
        ∧ (∀ e : Port, s.clocksNewTime.egresses[e] = s.egresses[e].newTime)
        ∧ (∀ p : Port, t.ports[p] = { s.ports[p] with
            sdLoss := s.ports[p].sdLoss.map fun n => n - 1
            traffic := s.ports[p].traffic.map fun n => n - 1
            window := s.ports[p].window.map fun w => { w with pos := w.pos + 1 }
            readDue := true })
        ∧ (∀ (e : Port) (r : Guard), s.guards[e] = some r →
            (∀ left, r.state = .holdoff left →
              t.guards[e] = some { r with state := .holdoff (left - 1) })
            ∧ (∀ left, r.state = .restoreWait left →
              t.guards[e] = some { r with state := .restoreWait (left - 1) })
            ∧ (r.state.timer = none → t.guards[e] = some r))
        ∧ (∀ k : SlotId, t.plans[k] = s.plans[k].map fun p : Plan =>
            { p with timer := p.timer.map fun n => n - 1 })
        ∧ (∀ k : ContextId, t.pool.contexts[k] = s.pool.contexts[k].map fun c : Context =>
            { c with timer := c.timer - 1 })
        ∧ t.group = { s.group with
            membership := (match s.group.membership with
              | .member (.released q) => .member (.released (q.map fun n => n - 1))
              | .member (.hold left) => .member (.hold (left - 1))
              | m => m)
            faultTimer := s.group.faultTimer.map fun n => n - 1 }
        ∧ (∀ n : SenseId, t.senses[n] = { s.senses[n] with
            qualifier := match s.senses[n].qualifier with
              | .qualifying left => .qualifying (left - 1)
              | q => q })
        ∧ t.link = { s.link with
            gapTimer := s.link.gapTimer.map fun n => n - 1
            mtx := s.link.mtx.map fun m : Sending => { m with left := m.left - 1 } }
        ∧ (s.subMicro < 99 → t.timeBase = s.timeBase ∧ t.subMicro = s.subMicro + 1)
        ∧ (99 ≤ s.subMicro → t.timeBase = s.timeBase + 1 ∧ t.subMicro = 0)
        ∧ t.conds = s.conds ∧ t.notices = s.notices ∧ t.claims = s.claims ∧ t.maxframe = s.maxframe
        ∧ t.straps = s.straps ∧ t.link.intake = s.link.intake ∧ t.link.refusals = s.link.refusals
        ∧ t.link.executed = s.link.executed ∧ t.phase = s.phase ∧ t.pending = []
        ∧ ∀ e : Port, t.egresses[e].entry = s.egresses[e].entry)

/-- What the blocks hold at a reset: an ingress section (R9, R19, R20, R21, R24), a selector with its entry
(R27, R28, R120), the PATTERN generator (R113), the injection buffer (R126), a condition (R139), the notice
queue (R148), the link (R167), and the group interface at the end of a reset (R99, R108). -/
def BlocksAtReset : Prop :=
  (∀ sd, Ingress.afterReset sd =
    { sd := sd, line := if sd then .hunt else .dark, sdLoss := none, searchRun := 0, violationRun := 0
      traffic := none, window := none, quietWindows := 0, lastWindow := 0, buffer := [], priming := false
      slipPending := false, tracker := .outside, abortDue := false, clean := .fill, cleanInside := false
      readDue := false, markDue := false, counters := Vector.replicate 11 0, expected := none, threshold := 16
      mode := .normal, txen := .auto })
  ∧ Egress.afterReset =
    { entry := { source := .hold, policy := .clean, guard := none }, state := .off, current := .hold, change := none
      inside := false, held := none, line := none, planSettle := none }
  ∧ Pattern.afterReset = { enable := false, length := 64, gap := 16, phase := .idle, next := 0, startDue := false }
  ∧ Pool.afterReset =
    { freeBlocks := 128, freeDescriptors := 32, nextId := 0
      views := Vector.replicate 16 { queue := [], sending := none, gap := 0, startDue := false }
      contexts := Vector.replicate 2 none }
  ∧ Condition.afterReset = { latch := false, count := 0, subscribed := false, pending := false }
  ∧ NoticeQueue.afterReset = { entries := [], next := 0, lost := 0, firstLoss := none }
  ∧ Link.afterReset =
    { framer := .seek, gapTimer := none, intake := [], refusals := [], executed := [], restartPending := false
      mtx := none }
  ∧ ∀ high, Group.afterReset high =
    { membership := .unset, plan := none, high := high, faultTimer := if high then some 200 else none
      episode := false, epoch := 0 }

/-- The level of GRDY as a reset begins, at which the part pulls the line low: a line that reads HIGH and that
the part had released reads LOW at once on sound wiring, which is a free value, and any other stays (R97; log
entry 19). -/
def LevelFollowsThePull (s : State) (draws : Nat) (t : State) : Prop :=
  (s.group.driveLow = false → s.group.high = true → t.group.high = !Config.grdySound draws)
  ∧ (s.group.driveLow = true ∨ s.group.high = false → t.group.high = s.group.high)

/-- A hardware reset takes effect at once, whatever the state: every block holds its reset state (R28, R70, R99,
R113, R126, R139, R148, R167), the time base holds 0 (R170), every transmit enable is deasserted (R121), its
output by the TEP strap (R123), and GRDY is pulled low (R99), which a line that the part had released and that
reads HIGH follows at once on sound wiring (R97; log entry 19).  A reset that began with power stays so (R168). 
During a reset or restart every other command but the ends of the two leaves all as it is, apart from the level
of an input pin (log entry 29). -/
def Obligations.HardwareResetTakesEffectAtOnce : Prop :=
  BlocksAtReset ∧ (∀ (cause : HardwareCause) (tep : Bool) (s : State),
    ∃ t : State, exec (.hardwareReset cause tep) s = .next t
      ∧ t.phase = .hardwareReset (if s.phase = .hardwareReset .power then .power else cause)
      ∧ t.strapPins.tepHigh = tep ∧ t.timeBase = 0 ∧ t.maxframe = 16384
      ∧ (∀ p : Port, t.ports[p] = Ingress.afterReset s.ports[p].sd)
      ∧ (∀ e : Port, t.egresses[e] = Egress.afterReset ∧ t.guards[e] = none ∧ t.claims[e] = none)
      ∧ (∀ k : SlotId, t.plans[k] = none)
      ∧ t.group.membership = .unset ∧ t.group.plan = none ∧ t.group.epoch = 0
      ∧ t.group.faultTimer = none ∧ t.group.episode = false ∧ t.group.driveLow = true
      ∧ LevelFollowsThePull s s.draws t
      ∧ (∀ n : SenseId, t.senses[n] = { level := s.senses[n].level, qualifier := .low })
      ∧ t.pattern = Pattern.afterReset ∧ t.pool = Pool.afterReset
      ∧ (∀ c : CondId, t.conds[c] = Condition.afterReset)
      ∧ t.notices = NoticeQueue.afterReset ∧ t.link = Link.afterReset
      ∧ ∀ p : Port, t.txenAsserted p = false ∧ t.txenHigh p = tep)
  ∧ ∀ (c : Instr) (s : State), s.phase ≠ .run → (∀ cause tep, c ≠ .hardwareReset cause tep) →
      (∀ i, c ≠ .hardwareResetEnd i) → (∀ straps, c ≠ .restartEnd straps) →
      ∃ t : State, exec c s = .next t
        ∧ t = { s with
            ports := t.ports, senses := t.senses, group := { s.group with high := t.group.high } }
        ∧ (∀ p : Port, t.ports[p] = { s.ports[p] with sd := t.ports[p].sd })
        ∧ ∀ n : SenseId, t.senses[n] = { s.senses[n] with level := t.senses[n].level }

/-- The state in which HELLO has just been queued at the end of a reset, with the cause and straps it
reports (R168), the ingresses (R9), qualifiers (R143) and fault timer (R108) by the levels of that
moment. -/
def HelloQueued (t : State) (cause : ResetCause) (straps : Straps) (sd : Port → Bool)
    (sense : SenseId → Bool) (high : Bool) : Prop :=
  t.phase = .run ∧ t.timeBase = 0 ∧ t.straps = straps ∧ t.maxframe = 16384
    ∧ t.notices.entries = [{ number := 0, time := 0, body := .hello cause straps }]
    ∧ t.notices.next = 1 ∧ t.link = Link.afterReset
    ∧ (∀ p : Port, t.ports[p] = Ingress.afterReset (sd p)
        ∧ t.ports[p].line = if sd p then .hunt else .dark)
    ∧ (∀ n : SenseId, t.senses[n].qualifier = if sense n then .qualifying 20 else .low)
    ∧ t.group = Group.afterReset high
    ∧ (∀ e : Port, t.egresses[e] = Egress.afterReset ∧ t.guards[e] = none ∧ t.claims[e] = none)
    ∧ (∀ k : SlotId, t.plans[k] = none) ∧ t.pattern = Pattern.afterReset ∧ t.pool = Pool.afterReset
    ∧ ∀ c : CondId, t.conds[c] = Condition.afterReset

/-- The end of a hardware reset and of a restart (R168): every block as after reset, HELLO queued as
notice 0 with time stamp 0 and the cause POWER, PIN or REQUEST, and then the arbiter's choice, which sends
it (R166).  State.reset is the end of a power-on reset with the input levels of log entry 4. -/
def Obligations.ResetEndQueuesHello : Prop :=
  (∀ (i : Inputs) (cause : HardwareCause) (s : State), s.phase = .hardwareReset cause →
      ∃ t : State, exec (.hardwareResetEnd i) s = .next t.arbitrate
        ∧ HelloQueued t (match cause with | .power => .power | .pin => .pin) i.straps
            (fun p => i.sd.getLsbD p.val) (fun n => i.sense.getLsbD n.val) i.grdyHigh)
    ∧ (∀ (straps : Straps) (left : Nat) (s : State), s.phase = .restart left →
        ∃ t : State, exec (.restartEnd straps) s = .next t.arbitrate
          ∧ HelloQueued t .request straps (fun p => s.ports[p].sd) (fun n => s.senses[n].level)
              s.group.high)
    ∧ State.reset.link.mtx.map (fun m => m.message.envelope.take 10)
        = some [0xD1, 0x12, 0x80, 0, 0, 0, 0, 0, 0, 0]
    ∧ exec (.hardwareResetEnd
        { straps := { lrate := 0, tepHigh := false }, sd := 0, sense := 0, grdyHigh := false })
        { State.reset with phase := .hardwareReset .power } = .next State.reset

/-! ### The management link -/

/-- The arrival of a request (R161, R162): the three checks in their order, a refusal placed behind the
refusals that wait or dropped with an occurrence of LINK_OVERRUN, id 38, and else the tail of the intake queue.  The
framer is in SEEK again (R158). -/
def Obligations.RequestArrivalChecksTagAndRoom : Prop :=
  ∀ (s : State) (kind tag : Byte) (payload : List Byte), s.phase = .run →
    s.link.restartPending = false → payload.length ≤ 248 →
    let f := s.setLink { s.link with framer := .seek, gapTimer := none }
    let refused (st : Status) : State :=
      if s.link.refusals.length + s.link.executed.length < 6 then
        f.setLink { f.link with
          refusals := s.link.refusals
            ++ [{ kind := kind &&& 0x7F, tag := tag, status := st, result := [], restart := false }] }
      else f.occur 38
    (tag = 0 → exec (.requestArrival kind tag payload) s = .next (refused .badTag).arbitrate)
    ∧ (tag ≠ 0 → (∃ m ∈ s.link.intake, m.tag = tag) →
        exec (.requestArrival kind tag payload) s = .next (refused .tagInUse).arbitrate)
    ∧ (tag ≠ 0 → (∀ m ∈ s.link.intake, m.tag ≠ tag) → 4 ≤ s.link.intake.length →
        exec (.requestArrival kind tag payload) s = .next (refused .busy).arbitrate)
    ∧ (tag ≠ 0 → (∀ m ∈ s.link.intake, m.tag ≠ tag) → s.link.intake.length < 4 →
        exec (.requestArrival kind tag payload) s
          = .next (f.setLink { f.link with
              intake := s.link.intake ++ [{ kind := kind, tag := tag, payload := payload }] }).arbitrate)

/-- BYTE_RECEIVED in each framer state (R157, R158, R159, R160), while restart pending is clear, the last byte of a
message being the arrival of its request (R158); and the
events of a discarded message: CHECK_FAILURE counts one LINK_CHECK (id 36), GAP_TIMER_EXPIRY one LINK_TRUNC
(id 37), LEN_OUT_OF_RANGE nothing, and each drops the partial message and sends no reply. -/
def Obligations.FramerFollowsItsBytes : Prop :=
  ∀ (s : State) (b : Byte) (err : Bool), s.phase = .run → s.link.restartPending = false →
    let goes (f : Framer) : State := s.setLink { s.link with framer := f, gapTimer := some 1000000 }
    let back : State := s.setLink { s.link with framer := .seek, gapTimer := none }
    let next (t : State) : Prop := exec (.byteReceived b err) s = .next t.arbitrate
    (s.link.framer = .seek → b = 0xD1 → err = false → next (goes .length))
    ∧ (s.link.framer = .seek → b ≠ 0xD1 ∨ err = true → next s)
    ∧ (s.link.framer = .length → err = false → 2 ≤ b.toNat → b.toNat ≤ 250 →
        next (goes (.body b.toNat [] (checkByte 0xFFFF b))))
    ∧ (s.link.framer = .length → err = false → b.toNat < 2 ∨ 250 < b.toNat → next back)
    ∧ (∀ len got check, s.link.framer = .body len got check → err = false → got.length + 1 ≠ len →
        next (goes (.body len (got ++ [b]) (checkByte check b))))
    ∧ (∀ len got check, s.link.framer = .body len got check → err = false → got.length + 1 = len →
        next (goes (.checkHigh (got ++ [b]) (checkByte check b))))
    ∧ (∀ got check, s.link.framer = .checkHigh got check → err = false →
        next (goes (.checkLow got check b)))
    ∧ (∀ got check hi, s.link.framer = .checkLow got check hi → err = false → hi ++ b ≠ check →
        next (back.occur 36))
    ∧ (∀ kind tag payload check hi, s.link.framer = .checkLow (kind :: tag :: payload) check hi →
        err = false → hi ++ b = check → next (back.takeIn kind tag payload)
        ∧ (payload.length ≤ 248 →
          exec (.byteReceived b err) s = exec (.requestArrival kind tag payload) s))
    ∧ (s.link.framer ≠ .seek → err = true → next (back.occur 36))
    ∧ exec .checkFailure s = .next (back.occur 36).arbitrate
    ∧ (s.link.gapTimer.isSome → exec .gapTimerExpiry s = .next (back.occur 37).arbitrate)
    ∧ ∀ len : Byte, len.toNat ≤ 1 ∨ 251 ≤ len.toNat →
        exec (.lenOutOfRange len) s = .next back.arbitrate

/-- The envelope read byte by byte is the message it was made from (R155, R158, R185): the bytes of any
message of a host, received in SEEK, are one arrival of that request. -/
def Obligations.EnvelopeBytesAreTheMessage : Prop :=
  ∀ (s : State) (m : Message), s.phase = .run → s.link.restartPending = false →
    s.link.framer = .seek → s.ArbiterAtRest → m.payload.length ≤ 248 →
    exec (.requestArrival m.kind m.tag m.payload) s = .next (s.feed m.envelope)

/-- The check value starts at FFFFH and takes in each byte bit by bit, the most significant first: shifted left
by one, and combined by exclusive-or with 1021H when the bit shifted out differs from the data bit.  That of the
bytes 31H to 39H is 29B1H, and carried on through its own two bytes a check value becomes 0 (R155).  A message
on the line is D1H, LEN, kind, tag, payload and the check value of all but the first, high byte first. -/
def Obligations.CheckValueIsTheCrcOfTheManual : Prop :=
  checkValue [0x31, 0x32, 0x33, 0x34, 0x35, 0x36, 0x37, 0x38, 0x39] = 0x29B1
    ∧ (∀ bs : List Byte, checkValue (bs ++ halfBytes (checkValue bs)) = 0)
    ∧ (∀ bs : List Byte, checkValue bs = bs.foldl checkByte 0xFFFF)
    ∧ (∀ (v : Half) (b : Byte),
      let bit (w : Half) (i : Nat) : Half :=
        if w.getLsbD 15 = b.getLsbD i then w <<< 1 else (w <<< 1) ^^^ 0x1021
      checkByte v b = bit (bit (bit (bit (bit (bit (bit (bit v 7) 6) 5) 4) 3) 2) 1) 0)
    ∧ ∀ m : Message,
      let covered := natByte (m.payload.length + 2) :: m.kind :: m.tag :: m.payload
      m.envelope = 0xD1 :: covered ++ halfBytes (checkValue covered)

/-- What a reply and a notice are on the line: a reply has its kind and tag, its status code (R178) and its result
fields; a notice its kind code, tag 0, number, time stamp (R183) and body, in the fields of R184, the latch and count
of a CONDITION and the time base of HELLO being those of state `s`. -/
def MessagesAsSent (s : State) : Prop :=
  (∀ r : Reply, r.message = { kind := r.kind, tag := r.tag, payload := r.status.code :: r.result })
  ∧ [Status.ok, .busy, .tagInUse, .badTag, .badKind, .badLength, .badField, .egressClaimed, .claimConflict,
      .dupEgress, .noSlot, .idInUse, .noPlan, .wrongState, .tooLate, .groupBusy, .notMember, .notAllowed,
      .noSpace, .notInject, .noAssembly, .fragmentOrder].map Status.code
    = [0x00, 0x10, 0x11, 0x12, 0x20, 0x21, 0x22, 0x30, 0x31, 0x32, 0x33, 0x34, 0x35, 0x36, 0x37, 0x38, 0x39, 0x3A,
      0x40, 0x41, 0x42, 0x43]
  ∧ ∀ (number : Half) (time : Word32) (body : NoticeBody),
    let sent (kind : Byte) (bytes : List Byte) : Prop :=
      ({ number := number, time := time, body := body } : Notice).message s
        = { kind := kind, tag := 0, payload := halfBytes number ++ wordBytes time ++ bytes }
    (∀ cause straps, body = .hello cause straps →
      sent 0x80 ([0x16, 0x10, 1, (match cause with | .power => 0 | .pin => 1 | .request => 2),
        natByte straps.lrate.val, if straps.tepHigh then 1 else 0] ++ wordBytes s.timeBase))
    ∧ (∀ c, body = .condition c →
      sent 0x81 [natByte c.val, if s.conds[c].latch then 1 else 0, s.conds[c].count])
    ∧ (∀ n, body = .plan n →
      sent 0x82 ([(match n.event with | .fired => 0 | .done => 1 | .expired => 2), n.id, natByte n.slot.val,
          n.trigger.code, (match n.firedBy with
            | none => 0xFF
            | some .trigger => 0
            | some .override => 1)]
        ++ (match n.epoch with
            | none => [0, 0, 0]
            | some h => 1 :: halfBytes h)
        ++ [(match n.reason with
            | none => 0xFF
            | some .armTimeout => 0
            | some .groupTimeout => 1),
          natByte n.editCount, natByte n.clean, natByte n.forced, natByte n.deadline, natByte n.down]))
    ∧ (∀ e tag source o down, body = .settled e tag source o down →
      sent 0x83 [natByte e.val, tag, source.code, o.code + (if down then 8 else 0), if down then 1 else 0])
    ∧ (∀ e id length, body = .injectSent e id length →
      sent 0x84 (natByte e.val :: halfBytes id ++ natHalf length))
    ∧ (∀ e id received, body = .assemblyTimeout e id received →
      sent 0x85 ([0, natByte e.val, 1] ++ halfBytes id ++ [0, 0] ++ natHalf received ++ [0]))
    ∧ (∀ e queue contexts, body = .targetChanged e queue contexts →
      sent 0x85 ([1, natByte e.val, 0, 0, 0, 0, 0] ++ natHalf contexts ++ [natByte queue]))
    ∧ (∀ e id length count, body = .frameCut e id length count →
      sent 0x85 ([2, natByte e.val, 1] ++ halfBytes id ++ natHalf length ++ natHalf count ++ [0]))
    ∧ ∀ lost first, body = .overflow lost first → sent 0x86 (lost :: wordBytes first)

/-- The time a message takes on MTX: its bytes, of ten bits each, at the bit rate of the LRATE straps (R154),
rounded up to a whole character time of 10 ns (log entry 9). -/
def MessageLasts (m : Message) : Prop :=
  m.envelope.length = m.payload.length + 6
  ∧ ∀ (lrate : Fin 4) (rate : Nat), [57600, 115200, 460800, 1000000][lrate.val]? = some rate →
    let bits := 10 * m.envelope.length
    bits * 100000000 ≤ m.duration lrate * rate ∧ m.duration lrate * rate < bits * 100000000 + rate

/-- The arbiter (R166): with MTX idle it starts the first refusal, else the first executed reply, else the
oldest notice, which leave their stores; else, and with MTX busy, it does nothing.  A departure that leaves 16
notices with a loss recorded queues OVERFLOW with the loss, under the next number and the present time, and resets the
record (R152); any other leaves the next number and the record as they are.  The arbiter touches the link, the
notice queue and pending marks, and nothing else of the part.  A reply carries its status code (R178) and a notice its
number, time stamp and body (R183, R184), with the latch and count of a CONDITION as they are when it is sent
(R150).  It lasts as many bits as it has, at the bit rate of the straps in force (R154), rounded up (log entry 9). -/
def Obligations.ArbiterSendsRepliesBeforeNotices : Prop :=
  ∀ s : State, s.phase = .run →
    (s.link.mtx.isSome → s.arbitrate = s)
    ∧ (∀ r rest, s.link.mtx = none → s.link.refusals = r :: rest →
        s.arbitrate = s.setLink { s.link with
          refusals := rest
          mtx := some
            { message := r.message, restart := r.restart, left := r.message.duration s.straps.lrate } })
    ∧ (∀ r rest, s.link.mtx = none → s.link.refusals = [] → s.link.executed = r :: rest →
        s.arbitrate = s.setLink { s.link with
          executed := rest
          mtx := some
            { message := r.message, restart := r.restart, left := r.message.duration s.straps.lrate } })
    ∧ (∀ n rest, s.link.mtx = none → s.link.refusals = [] → s.link.executed = [] →
        s.notices.entries = n :: rest →
        s.arbitrate.link = { s.link with
          mtx := some
            { message := n.message s, restart := false
              left := (n.message s).duration s.straps.lrate } }
        ∧ (∀ c, n.body = .condition c → s.arbitrate.conds[c].pending = false)
        ∧ (∀ c, n.body ≠ .condition c → s.arbitrate.conds[c] = s.conds[c])
        ∧ (s.notices.firstLoss = none ∨ rest.length ≠ 16 →
            s.arbitrate.notices = { s.notices with entries := rest })
        ∧ ∀ first, s.notices.firstLoss = some first → rest.length = 16 →
            s.arbitrate.notices
              = { entries := rest ++ [{ number := s.notices.next, time := s.timeBase
                                        body := .overflow s.notices.lost first }]
                  next := s.notices.next + 1, lost := 0, firstLoss := none })
    ∧ MessagesAsSent s ∧ (∀ m : Message, MessageLasts m)
    ∧ (s.link.mtx = none → s.link.refusals = [] → s.link.executed = [] → s.notices.entries = [] →
        s.arbitrate = s)
    ∧ ∃ cs ns l, s.arbitrate = { s with conds := cs, notices := ns, link := l }
      ∧ l.intake = s.link.intake ∧ l.framer = s.link.framer ∧ l.gapTimer = s.link.gapTimer
      ∧ l.restartPending = s.link.restartPending
      ∧ ∀ c : CondId, cs[c].latch = s.conds[c].latch ∧ cs[c].count = s.conds[c].count
          ∧ cs[c].subscribed = s.conds[c].subscribed

/-- RESTART sets restart pending, discards a partial message and places the reply OK, which carries the restart
(R169).  When the last stop bit of a message has been sent, MTX is idle and the arbiter chooses again (R166);
after the RESTART reply the 20 us restart begins instead, and every block takes its reset state (R169): the
ingress sections, MAXFRAME, the sense qualifiers and the group interface among them.  Every TXEN is deasserted
then, by the polarity that the TEP strap reads as in that restart (R121, R123; a free value, log entry 21). 
GRDY is pulled low from then on (R99), which the level it reads follows on sound wiring (R97; log entry 19). -/
def Obligations.RestartWaitsForItsReplyToBeSent : Prop :=
  (∀ (s : State) (m : Message) (rest : List Message), s.CanTake m rest 0x03 → m.payload = [] →
    exec .restart s
      = .next (((s.taken rest).setLink
          { s.link with
            intake := rest, restartPending := true, framer := .seek, gapTimer := none }).replied m
          { status := .ok, result := [], restart := true }))
  ∧ ∀ (s : State) (m : Sending), s.phase = .run → s.link.mtx = some m →
    (m.restart = false → exec .sendComplete s = .next (s.setLink { s.link with mtx := none }).arbitrate)
    ∧ (m.restart = true → ∃ t : State, exec .sendComplete s = .next t ∧ t.phase = .restart 2000
        ∧ t.timeBase = 0 ∧ t.link = Link.afterReset ∧ t.notices = NoticeQueue.afterReset
        ∧ t.maxframe = 16384
        ∧ (∀ p : Port, t.ports[p] = Ingress.afterReset s.ports[p].sd)
        ∧ (∀ e : Port, t.egresses[e] = Egress.afterReset ∧ t.guards[e] = none ∧ t.claims[e] = none)
        ∧ (∀ k : SlotId, t.plans[k] = none)
        ∧ t.group = { membership := .unset, plan := none, high := t.group.high, faultTimer := none
                      episode := false, epoch := 0 }
        ∧ LevelFollowsThePull s (s.draws + 1) t
        ∧ t.group.driveLow = true ∧ t.pool = Pool.afterReset
        ∧ t.pattern = Pattern.afterReset ∧ (∀ c : CondId, t.conds[c] = Condition.afterReset)
        ∧ (∀ n : SenseId, t.senses[n] = { level := s.senses[n].level, qualifier := .low })
        ∧ t.pending = s.pending
        ∧ ∀ p : Port, t.txenAsserted p = false ∧ t.txenHigh p = t.strapPins.tepHigh)

/-- ECHO with 248 bytes is refused BAD_LENGTH; with 0 to 247 it changes nothing, and the reply is OK with
the payload byte for byte (R172). -/
def Obligations.EchoReturnsItsPayload : Prop :=
  ∀ (s : State) (m : Message) (rest : List Message), s.CanTake m rest 0x01 →
    (m.payload.length ≤ 247 → exec .echo s = .next ((s.taken rest).replied m (Answer.ok m.payload)))
    ∧ (248 ≤ m.payload.length →
        exec .echo s = .next ((s.taken rest).replied m (Answer.refuse .badLength)))

/-- STATUS reports the part as it stands and changes nothing (R171): 20 result bytes, the request itself no
longer in the intake queue and its own reply entry counted; the seven plan counts are those of the slots FREE,
LOADED, ARMED, APPLYING, DONE, EXPIRED and CANCELLED, and sum to 8.  A request whose kind is none of the
twenty-five, every kind with the high bit set among them, is refused BAD_KIND and changes nothing (R164, R173). 
A reply joins the tail of the executed replies with the kind of its request, the high bit clear, and its tag
(R156, R163), a refusal having no result fields (R179). -/
def Obligations.StatusReportsAndUnknownKindsAreRefused : Prop :=
  ∀ (s : State) (m : Message) (rest : List Message),
    (s.CanTake m rest 0x02 → m.payload = [] →
      exec .status s
        = .next ((s.taken rest).replied m (Answer.ok
            ([0x16, 0x10, 1] ++ wordBytes s.timeBase
              ++ [natByte rest.length, natByte (s.link.replies + 1), 0,
                  natByte s.notices.entries.length, flagByte s.notices.firstLoss.isSome, s.notices.lost]
              ++ s.planCounts))))
    ∧ (s.CanTake m rest 0x02 → m.payload ≠ [] →
        exec .status s = .next ((s.taken rest).replied m (Answer.refuse .badLength)))
    ∧ s.planCounts
      = natByte (s.plans.toList.countP fun p => p.isNone)
        :: ([PlanState.loaded, .armed, .applying, .done, .expired, .cancelled].map fun x =>
            natByte (s.plans.toList.countP fun p => p.any fun q => decide (q.state = x)))
    ∧ s.planCounts.length = 7 ∧ (s.planCounts.map BitVec.toNat).sum = 8
    ∧ (s.CanTake m rest m.kind → m.kind ∉ requestKinds →
      exec .unknownRequestKind s = .next ((s.taken rest).replied m (Answer.refuse .badKind)))
    ∧ (128 ≤ m.kind.toNat → m.kind ∉ requestKinds) ∧ requestKinds.length = 25
    ∧ (∀ a : Answer, s.replied m a
      = (s.setLink { s.link with
          executed := s.link.executed
            ++ [{ kind := m.kind &&& 0x7F, tag := m.tag, status := a.status, result := a.result
                  restart := a.restart }] }).arbitrate)
    ∧ (∀ result : List Byte, Answer.ok result = { status := .ok, result := result, restart := false })
    ∧ ∀ st : Status, Answer.refuse st = { status := st, result := [], restart := false }

/-- The payload lengths the catalogue allows for a request kind (R177). -/
def lengthAllowed (kind : Byte) (payload : List Byte) : Bool :=
  let n := payload.length
  if kind = 0x01 then decide (n ≤ 247)
  else if kind ∈ [0x02, 0x03, 0x21, 0x41, 0x63, 0x70] then decide (n = 0)
  else if kind ∈ [0x31, 0x32, 0x33, 0x34, 0x35, 0x40, 0x62] then decide (n = 1)
  else if kind ∈ [0x10, 0x12, 0x22] then decide (n = 2)
  else if kind = 0x11 then decide (n = 4)
  else if kind = 0x50 then decide (n = 5)
  else if kind = 0x20 then decide (n = 10)
  else if kind = 0x60 then decide (5 ≤ n) && decide (n ≤ 244)
  else if kind = 0x61 then decide (4 ≤ n) && decide (n ≤ 243)
  else if kind = 0x30 then
    match payload[10]? with
    | none => false
    | some count => decide (n = 11 + 7 * count.toNat)
  else if kind = 0x71 then
    match payload[1]? with
    | none => false
    | some count => decide (count.toNat ≤ 40) && decide (n = 2 + count.toNat)
  else if kind = 0x72 then
    match payload[0]? with
    | none => false
    | some count => decide (count.toNat ≤ 40) && decide (n = 1 + count.toNat)
  else false

/-- A request of a known kind whose payload length is not allowed is refused BAD_LENGTH and changes nothing,
before any other check (R164, R177); one whose length is allowed is not refused so.  A PLAN_LOAD whose edit
count agrees with its length but is 0 or above 16 is refused BAD_FIELD.  The twenty-five known kinds have the codes of
R173, each with its own row, and every other code has the row of an unknown kind. -/
def Obligations.WrongLengthsAreRefusedBadLength : Prop :=
  (requestKinds.map fun k => (k, requestCommand k))
    = [(0x01, .echo), (0x02, .status), (0x03, .restart), (0x10, .setFraming), (0x11, .setPort), (0x12, .portStatus),
      (0x20, .connect), (0x21, .mapRead), (0x22, .guardControl), (0x30, .planLoad), (0x31, .planArm),
      (0x32, .planFire), (0x33, .planCancel false), (0x34, .planRead), (0x35, .planRelease), (0x40, .groupConfig),
      (0x41, .groupStatus), (0x50, .patternConfig), (0x60, .injectStart), (0x61, .injectCont), (0x62, .injectAbort),
      (0x63, .poolStatus), (0x70, .conditionsRead), (0x71, .conditionsClear), (0x72, .subscribe)]
  ∧ (∀ kind, kind ∉ requestKinds → requestCommand kind = .unknownRequestKind)
  ∧ ∀ (s : State) (m : Message) (rest : List Message) (kind : Byte), s.CanTake m rest kind →
    kind ∈ requestKinds →
    (lengthAllowed kind m.payload = false →
      exec (requestCommand kind) s = .next ((s.taken rest).replied m (Answer.refuse .badLength)))
    ∧ (lengthAllowed kind m.payload = true →
      ∃ (a : Answer) (u : State), exec (requestCommand kind) s = .next (u.replied m a)
        ∧ a.status ≠ .badLength)
    ∧ ∀ count : Byte, kind = 0x30 → lengthAllowed kind m.payload = true → m.payload[10]? = some count →
      count = 0 ∨ 16 < count.toNat →
      exec .planLoad s = .next ((s.taken rest).replied m (Answer.refuse .badField))

/-! ### Ingress ports -/

/-- SET_FRAMING sets MAXFRAME for frames opened from then on: a value outside 64 to 65535 is refused, a
tracker INSIDE keeps its latched limit, and an accepted OPEN latches the value in force (R24). -/
def Obligations.SetFramingAppliesToLaterFrames : Prop :=
  (∀ (s : State) (m : Message) (rest : List Message), s.CanTake m rest 0x10 →
    (∀ hi lo : Byte, m.payload = [hi, lo] → 64 ≤ (hi ++ lo).toNat →
      exec .setFraming s
        = .next ({ s.taken rest with maxframe := (hi ++ lo).toNat }.replied m (Answer.ok [])))
    ∧ (∀ hi lo : Byte, m.payload = [hi, lo] → (hi ++ lo).toNat < 64 →
      exec .setFraming s = .next ((s.taken rest).replied m (Answer.refuse .badField)))
    ∧ (m.payload.length ≠ 2 →
      exec .setFraming s = .next ((s.taken rest).replied m (Answer.refuse .badLength))))
  ∧ (∀ (g : Ingress) (maxframe : Nat), g.tracker = .outside ∨ g.tracker = .discard →
      (g.track maxframe (.char .opn)).after.tracker = .inside 0 maxframe 0 true)
  ∧ ∀ (g : Ingress) (maxframe n limit n' limit' : Nat) (seq seq' : Half) (ok ok' : Bool)
      (item : ReadItem), g.tracker = .inside n limit seq ok →
      (g.track maxframe item).after.tracker = .inside n' limit' seq' ok' → limit' = limit

/-- SET_PORT replaces the three settings of the named port together and touches nothing else of it but the
expected sequence, which VERIFY named in VERIFY keeps and any other setting of the mode leaves absent (R21,
R23), in the codes of R176; a port above 15, a threshold of 0 or a mode outside its list is refused.  While the
part runs TXENn is asserted with the mode ON, deasserted with OFF, and follows egress n with AUTO, asserted
unless it is OFF (R121); an asserted output is high with TEP low and low with TEP high (R123). -/
def Obligations.SetPortReplacesThreeSettings : Prop :=
  (∀ (s : State) (m : Message) (rest : List Message) (p t n v : Byte), s.CanTake m rest 0x11 →
    m.payload = [p, t, n, v] →
    (∀ (port : Port) (txen : TxenMode) (mode : IngressMode), p = natByte port.val →
      t = (match txen with | .auto => 0 | .on => 1 | .off => 2) →
      v = (match mode with | .normal => 0 | .verify => 1) → n ≠ 0 →
      exec .setPort s
        = .next (((s.taken rest).setPort port
            { s.ports[port] with
              txen := txen, threshold := n, mode := mode
              expected :=
                if s.ports[port].mode = .verify ∧ mode = .verify then s.ports[port].expected
                else none }).replied m (Answer.ok [])))
    ∧ (16 ≤ p.toNat ∨ n = 0 ∨ 3 ≤ t.toNat ∨ 2 ≤ v.toNat →
      exec .setPort s = .next ((s.taken rest).replied m (Answer.refuse .badField))))
  ∧ ∀ (s : State) (n : Port), s.phase = .run →
      (s.ports[n].txen = .on → s.txenAsserted n = true)
      ∧ (s.ports[n].txen = .off → s.txenAsserted n = false)
      ∧ (s.ports[n].txen = .auto → s.txenAsserted n = !decide (s.egresses[n].state = .off))
      ∧ s.txenHigh n = if s.straps.tepHigh then !s.txenAsserted n else s.txenAsserted n

/-- PORT_STATUS reports 57 result bytes of the port as it stands, field by field in the codes of R174 to R176,
numbers high byte first, and with the clear flag sets its eleven counters to 0 and changes nothing else (R25). -/
def Obligations.PortStatusReportsThenClears : Prop :=
  ∀ (s : State) (m : Message) (rest : List Message) (p c : Byte), s.CanTake m rest 0x12 →
    m.payload = [p, c] →
    (∀ port : Port, p = natByte port.val → c = 0 →
      exec .portStatus s
        = .next ((s.taken rest).replied m (Answer.ok s.ports[port].statusResult)))
    ∧ (∀ port : Port, p = natByte port.val → c = 1 →
      exec .portStatus s
        = .next (((s.taken rest).setPort port
            { s.ports[port] with counters := Vector.replicate 11 0 }).replied m
            (Answer.ok s.ports[port].statusResult)))
    ∧ (16 ≤ p.toNat ∨ 2 ≤ c.toNat →
      exec .portStatus s = .next ((s.taken rest).replied m (Answer.refuse .badField)))
    ∧ (∀ g : Ingress, g.statusResult.length = 57
      ∧ g.statusResult
        = [g.line.code, if g.sd then 1 else 0, if g.traffic.isSome then 1 else 0, g.tracker.code,
            natByte g.level]
          ++ natHalf g.lastWindow ++ [g.txen.code, g.threshold, g.mode.code]
          ++ (match g.expected with
              | none => [0, 0, 0]
              | some n => 1 :: halfBytes n)
          ++ g.counters.toList.flatMap wordBytes)
    ∧ [LineState.dark, .hunt, .quiet, .carry, .noisy].map LineState.code = [0, 1, 2, 3, 4]
    ∧ (∀ n limit seq ok,
        [Tracker.outside, .inside n limit seq ok, .discard].map Tracker.code = [0, 1, 2])
    ∧ [TxenMode.auto, .on, .off].map TxenMode.code = [0, 1, 2]
    ∧ [IngressMode.normal, .verify].map IngressMode.code = [0, 1]
    ∧ [Counter.framesGood, .framesAborted, .framesCut, .runaways, .violations, .slips, .strayDelimiters,
        .marks, .patternGood, .patternBad, .patternGaps].map (fun k => k.index.val) = List.range 11
    ∧ (∀ h : Half, (halfBytes h).map BitVec.toNat = [h.toNat / 256, h.toNat % 256])
    ∧ (∀ n : Nat, (natByte n).toNat = n % 256 ∧ natHalf n = halfBytes (BitVec.ofNat 16 n))
    ∧ (∀ hi lo : Byte, (readHalf hi lo).toNat = hi.toNat * 256 + lo.toNat)
    ∧ flagByte true = 1 ∧ flagByte false = 0
    ∧ ∀ w : Word32, (wordBytes w).map BitVec.toNat
        = [w.toNat / 16777216, w.toNat / 65536 % 256, w.toNat / 256 % 256, w.toNat % 256]

/-- SD_DEASSERT starts the 1 us timer and changes no line state; SD_ASSERT stops it, and takes a DARK line to
HUNT at once; the timer's expiry takes the line to DARK from any state, with the alignment, runs, window,
traffic timer, buffer and owed slip gone (log entry 27), and of a tracker INSIDE an ABORT owed and one cut frame
counted (R1, R19, R20).  A change of line state is heard by each of its receivers (R8): the condition unit, for
LINE(n), id 4 + n, when a fit line ceases to be so; the group interface, when its plan waits on this ingress
(R102); and each guard whose grade of the line has changed (R51).  What they and the blocks they move do comes
together, the notices in any order that keeps each block's own (R153). -/
def Obligations.SignalDetectMovesTheLine : Prop :=
  ∀ (s : State) (p : Port), s.phase = .run →
    (s.ports[p].sd = true →
      exec (.sdDeassert p) s
        = .next (s.setPort p { s.ports[p] with sd := false, sdLoss := some 100 }).arbitrate)
    ∧ (s.ports[p].sd = false → ∃ t : State, exec (.sdAssert p) s = .next t.arbitrate
        ∧ t.ports[p].sd = true ∧ t.ports[p].sdLoss = none
        ∧ t.ports[p].line = (if s.ports[p].line = .dark then .hunt else s.ports[p].line)
        ∧ t.ports[p].buffer = s.ports[p].buffer ∧ t.ports[p].tracker = s.ports[p].tracker
        ∧ t.ports[p].counters = s.ports[p].counters ∧ s.LineReach t p ∧ s.LineHeard t p)
    ∧ (s.ports[p].sdLoss.isSome → ∃ t : State, exec (.sdLossTimerExpiry p) s = .next t.arbitrate
        ∧ t.ports[p].line = .dark ∧ t.ports[p].sdLoss = none ∧ t.ports[p].violationRun = 0
        ∧ t.ports[p].window = none ∧ t.ports[p].traffic = none ∧ t.ports[p].buffer = []
        ∧ t.ports[p].priming = false ∧ t.ports[p].slipPending = false ∧ t.ports[p].tracker = .outside
        ∧ t.ports[p].abortDue = (s.ports[p].abortDue || s.ports[p].tracker.isInside)
        ∧ t.ports[p].counters
            = (if s.ports[p].tracker.isInside then (s.ports[p].bump .framesCut).counters
              else s.ports[p].counters)
        ∧ t.ports[p].expected = s.ports[p].expected ∧ s.LineReach t p ∧ s.LineHeard t p
        ∧ (s.ports[p].line.fit = true → (∀ e : Port, s.guards[e] = none) → s.group.plan = none →
            (∀ c : CondId, c.val = 4 + p.val →
              t.conds[c].latch = true ∧ t.conds[c].count = satInc s.conds[c].count)
            ∧ s.NoticesOnly t fun c => c.val = 4 + p.val))
    ∧ (∀ old : LineState,
      (old = s.ports[p].line → s.announceLine p old = s)
      ∧ (old ≠ s.ports[p].line →
          s.Together (s.lineParts p old s.ports[p].line) (s.announceLine p old)))
    ∧ (∀ (old new : LineState) (c : CondId), c.val = 4 + p.val → ∃ latches watched : Bool,
      (latches = true ↔ old.fit = true ∧ new.fit = false)
      ∧ (watched = true ↔ ∃ r, s.group.plan = some r ∧ r.ready = .sourcesFit ∧ p ∈ r.sources)
      ∧ s.lineParts p old new
        = (if latches then [[(State.occur · c)]] else [])
          ++ (if watched then [[State.groupLineEvent]] else [])
          ++ allPorts.flatMap fun e =>
              match s.guardHears e p old new with
              | none => []
              | some ev => s.guardEventParts e ev)
    ∧ ∀ l : LineState, l.fit = true ↔ l = .quiet ∨ l = .carry

/-- CHARACTER_RECEIVED by line state: nothing in DARK; in HUNT a VIOLATION begins the search run again, a
character in another alignment makes it 1 and one in the same alignment lengthens it, and the third in one
alignment locks it, in QUIET with an empty, priming buffer (R2; log entry 14).  Else a VIOLATION counts in its
counter, its noise window and its run; the fourth in a row puts the line in HUNT, the buffer and an owed slip
gone (log entry 27) and a frame INSIDE cut (R3, R19); that the quiet-window count is then 0 and the last window's
count stays is the model's reading (log entry 16).  A VIOLATION before that, like any other character, is
written at the tail of a buffer that holds fewer than 32 (R10).  A character that finds it full is dropped (R12,
R13): while INSIDE a slip is owed, and a second overflow before it is handed over owes no second one (the model's
choice, log entry 27); else a dropped OPEN leaves a lost-OPEN mark, and another character a slip mark
exactly when an OPEN stands in the buffer with no SHUT or ABORT after it; no mark holds buffer space.  That a dropped
VIOLATION leaves a slip mark under that same condition is the model's reading (log entry 15).  A change of
line state is announced (R8). -/
def Obligations.CharacterReceivedByLineState : Prop :=
  (∀ buffer : List BufItem, frameOpenIn buffer = true ↔ ∃ before after, buffer = before ++ .char .opn :: after
    ∧ .char .shut ∉ after ∧ .char .abort ∉ after)
  ∧ ∀ (s : State) (p : Port) (c : Character) (re : Bool), s.phase = .run →
    ∃ t : State, exec (.characterReceived p c re) s = .next t.arbitrate
      ∧ s.LineReach t p ∧ s.LineHeard t p
      ∧ (let g := s.ports[p]
        let h : Ingress :=
          if c = .violation then
            { g.bump .violations with
              window := g.window.map fun w => { w with count := w.count + 1 }
              violationRun := g.violationRun + 1 }
          else { g with violationRun := 0 }
        (g.line = .dark → t.ports[p] = g)
        ∧ (g.line = .hunt →
          (c = .violation → t.ports[p] = { g with searchRun := 0 })
          ∧ (c ≠ .violation → re = true → t.ports[p] = { g with searchRun := 1 })
          ∧ (c ≠ .violation → re = false → g.searchRun ≠ 2 →
              t.ports[p] = { g with searchRun := g.searchRun + 1 })
          ∧ (c ≠ .violation → re = false → g.searchRun = 2 →
              t.ports[p] = { g with
                line := .quiet, searchRun := 0, violationRun := 0, window := some { pos := 0, count := 0 }
                quietWindows := 0, traffic := none, buffer := [], priming := true
                slipPending := false }))
        ∧ (g.line.delivering = true → c = .violation → g.violationRun = 3 →
            t.ports[p] = { g with
              line := .hunt, searchRun := 0, violationRun := 0, window := none, quietWindows := 0
              traffic := none, buffer := [], priming := false, slipPending := false, tracker := .outside
              abortDue := g.abortDue || g.tracker.isInside
              counters :=
                if g.tracker.isInside then ((g.bump .violations).bump .framesCut).counters
                else (g.bump .violations).counters })
        ∧ (g.line.delivering = true → (c = .violation → g.violationRun ≠ 3) →
          (g.level < 32 →
            t.ports[p] = { h with
              buffer := g.buffer ++ [.char c], priming := g.priming && decide (g.level + 1 < 16) })
          ∧ (g.level = 32 →
            t.ports[p].level = 32
            ∧ (g.tracker.isInside = true → t.ports[p] = { h with slipPending := true })
            ∧ (g.tracker.isInside = false → t.ports[p] = { h with
                buffer := g.buffer
                  ++ (if c = .opn then [.lostOpen]
                    else if frameOpenIn g.buffer then [.slip] else []) })))
        ∧ (g.bump .violations).counters
            = g.counters.set Counter.violations.index (satInc g.counters[Counter.violations.index])
        ∧ (g.line.delivering = true ↔ g.line = .quiet ∨ g.line = .carry ∨ g.line = .noisy))

/-- What the read side of an ingress hands its tracker in one character time, and what it leaves in the buffer:
an owed ABORT (R19); nothing to read in DARK and HUNT; a slip owed by an overflow (R12); an inserted FILL while
priming (R10); a mark at the head (R13); on an empty buffer a slip while INSIDE (R12), and else an inserted FILL
(R11); the head character while INSIDE; and between frames, below 12 an inserted FILL, above 20 the character
behind a head that may be deleted (a FILL, or in DISCARD anything but OPEN), and else the head (R11).  Log entry
15 has the corners that the rules leave: a mark is taken whatever the level, an owed slip before the head, and a
head before a mark is read. -/
def ReadSideHands (g : Ingress) : Prop :=
  let hands (item : ReadItem) (left : List BufItem) : Prop := g.nextItem = (item, left)
  let inside := g.tracker.isInside
  (g.abortDue = true → hands .owedAbort g.buffer)
  ∧ (g.abortDue = false → g.line.delivering = false → hands .idle g.buffer)
  ∧ (g.abortDue = false → g.line.delivering = true →
    (g.slipPending = true → hands .slip g.buffer)
    ∧ (g.slipPending = false → g.priming = true → hands .inserted g.buffer)
    ∧ (g.slipPending = false → g.priming = false →
      (∀ rest, g.buffer = .lostOpen :: rest → hands .lostOpen rest)
      ∧ (∀ rest, g.buffer = .slip :: rest → hands .slipMark rest)
      ∧ (g.buffer = [] → inside = true → hands .slip [])
      ∧ (g.buffer = [] → inside = false → hands .inserted [])
      ∧ ∀ c rest, g.buffer = .char c :: rest →
        let goes := (g.tracker = .discard ∧ c ≠ .opn) ∨ (g.tracker = .outside ∧ c = .fill)
        (inside = true → hands (.char c) rest)
        ∧ (inside = false → g.level < 12 → hands .inserted g.buffer)
        ∧ (inside = false → 12 ≤ g.level → g.level ≤ 20 ∨ ¬ goes → hands (.char c) rest)
        ∧ (inside = false → 20 < g.level → goes →
          (∀ d rest', rest = .char d :: rest' → hands (.char d) rest')
          ∧ ((∀ d rest', rest ≠ .char d :: rest') → hands (.char c) rest))))
  ∧ g.level = g.buffer.countP fun
      | .char _ => true
      | .lostOpen => false
      | .slip => false

/-- One read of an ingress: what the read side hands over goes through the tracker, whose character and frame position
the clean stream then has (R14).  An owed ABORT is emitted in place of everything (R19), and FILL with nothing to
read. -/
def ReadOncePasses (g : Ingress) (maxframe : Nat) : Prop :=
  let item := g.nextItem
  let h : Ingress :=
    { g with
      buffer := item.2, slipPending := if item.1 = .slip then false else g.slipPending, readDue := false }
  let t := h.track maxframe item.1
  g.readOnce maxframe = { t with after := { t.after with clean := t.emitted, cleanInside := t.inside } }
  ∧ g.track maxframe .owedAbort
    = { emitted := .abort, inside := true, after := { g with abortDue := false }, event := .none }
  ∧ (g.tracker = .outside →
    g.track maxframe .idle = { emitted := .fill, inside := false, after := g, event := .none })

/-- The MARK events that wait are taken: each ingress's once, in some order, and each fires the plans that wait on it
(R81, R83). -/
def MarksTaken (s : State) : Prop :=
  ∃ (l : List Port) (draws : Nat), l.Nodup ∧ (∀ q : Port, q ∈ l ↔ s.ports[q].markDue = true)
    ∧ s.takeMarks = l.foldl (fun t q =>
        (t.setPort q { t.ports[q] with markDue := false }).fireWaiting (.mark q)) (s.setDraws draws)

/-- TRACKER_READ: one item leaves the read side, in the order of R10 to R13 and R19, and the tracker's character is
offered to every selector at that moment (R10, R14, R49).  A good frame is checked against the pattern length in force
(R22) and, on a line that delivers, restarts the traffic timer and makes QUIET CARRY (R4), which is announced (R8).  A
MARK gives a MARK event, whose fire follows that character time (R81): by the model's reading (log entry 34) it comes
with the read that leaves no ingress a read still to make, and a further read of an ingress begins another character
time.  By the model's reading a read waits, and changes nothing, while an egress holds a character of the ingress back
for the end of a drain (log entry 24) or is to join it at this moment, so that its next character is the first one sent
after the join (R38; log entry 33). -/
def Obligations.TrackerReadOffersOneCharacter : Prop :=
  (∀ (s : State) (src : Source), s.sourceOpen src = true ↔
    ∀ e : Port, (s.egresses[e].current = src → s.egresses[e].held = none)
      ∧ ¬ ∃ ch, s.egresses[e].state = .joining ∧ s.egresses[e].change = some ch ∧ ch.target = src
          ∧ s.betweenFrames e src = true)
  ∧ (∀ (s : State) (p : Port), s.phase = .run → s.sourceOpen (.ingress p) = false →
      exec (.trackerRead p) s = .next s)
  ∧ (∀ t : Tracker, t.isInside = true ↔ ∃ n limit seq ok, t = .inside n limit seq ok)
  ∧ (∀ (s : State) (p : Port), s.phase = .run → s.sourceOpen (.ingress p) = true →
    let v := if s.ports[p].readDue then s else s.takeMarks
    let r := v.ports[p].readOnce v.maxframe
    let u := (v.setPort p r.after).offer (.ingress p) r.emitted
    let ends (w : State) : Prop :=
      ((∃ q : Port, w.ports[q].readDue = true) → exec (.trackerRead p) s = .next w.arbitrate)
      ∧ ((∀ q : Port, w.ports[q].readDue = false) →
          exec (.trackerRead p) s = .next w.takeMarks.arbitrate)
    (∀ e : Port, u.egresses[e] = v.egresses[e].receive (.ingress p) r.emitted)
    ∧ (r.event = .none → ends u)
    ∧ (r.event = .mark → ends (u.setPort p { r.after with markDue := true }))
    ∧ ∀ n seq ok, r.event = .goodFrame n seq ok → ∃ t : State, ends t
        ∧ u.LineReach t p ∧ u.LineHeard t p
        ∧ t.ports[p].tracker = r.after.tracker ∧ t.ports[p].buffer = r.after.buffer
        ∧ t.ports[p].counters = (r.after.patternCheck v.pattern.length n seq ok).counters
        ∧ t.ports[p].expected = (r.after.patternCheck v.pattern.length n seq ok).expected
        ∧ t.ports[p].clean = r.emitted ∧ t.ports[p].cleanInside = r.inside
        ∧ (r.after.mode = .normal → t.ports[p].counters = r.after.counters)
        ∧ (r.after.line.delivering = true →
            t.ports[p].traffic = some 10000000
            ∧ t.ports[p].line = if r.after.line = .quiet then .carry else r.after.line))
  ∧ (∀ s : State, MarksTaken s)
  ∧ (∀ g : Ingress, ReadSideHands g)
  ∧ ∀ (g : Ingress) (maxframe : Nat), ReadOncePasses g maxframe

/-- The frame tracker, item by item (R15 to R18): what it emits with which frame position (R14), the state it
enters, the counter that goes up, and the event it gives, in OUTSIDE, in INSIDE with a data count below or at
the limit, and in DISCARD; nothing else of the ingress changes.  A MARK in OUTSIDE gives a MARK event (R15,
R81), and a SHUT in INSIDE reports a good frame with its length, sequence number and whether its bytes agree
(R16, R22, R4); nothing else gives an event.  A lost-OPEN mark counts a slip and a cut frame in each (R13).  The
first two DATA of a frame are read as its sequence number, and each later one is compared with the byte that
R114 gives for it (R22).  A counter saturates (R20). -/
def Obligations.FrameTrackerTable : Prop :=
  (∀ x : Word32, (satInc x).toNat = min 4294967295 (x.toNat + 1))
  ∧ ∀ (g : Ingress) (maxframe count limit : Nat) (seq : Half) (ok : Bool) (v : Byte),
    let gives (item : ReadItem) (c : Character) (inside : Bool) (t : Tracker) (ks : List Counter)
        (ev : TrackEvent) : Prop :=
      g.track maxframe item
        = { emitted := c, inside := inside, event := ev
            after := { g with
              tracker := t
              counters := ks.foldl (fun x k => x.set k.index (satInc x[k.index])) g.counters } }
    let out (item : ReadItem) (c : Character) (inside : Bool) (t : Tracker) (ks : List Counter) : Prop :=
      gives item c inside t ks .none
    (g.tracker = .outside →
      out (.char .fill) .fill false .outside [] ∧ gives (.char .mark) .mark false .outside [.marks] .mark
      ∧ out (.char .opn) .opn true (.inside 0 maxframe 0 true) []
      ∧ out (.char .shut) .fill false .outside [.strayDelimiters]
      ∧ out (.char .abort) .fill false .outside [.strayDelimiters]
      ∧ out (.char (.data v)) .fill false .outside [] ∧ out (.char .violation) .fill false .outside []
      ∧ out .inserted .fill false .outside [] ∧ out .slipMark .fill false .outside []
      ∧ out .idle .fill false .outside []
      ∧ out .lostOpen .fill false .discard [.slips, .framesCut])
    ∧ (g.tracker = .inside count limit seq ok →
      let seen : Half × Bool :=
        if count = 0 then (v ++ (0 : Byte), ok)
        else if count = 1 then (seq.extractLsb' 8 8 ++ v, ok)
        else (seq, ok && decide (v.toNat = (seq.toNat + 7 * count) % 256))
      (count < limit →
        out (.char (.data v)) (.data v) true (.inside (count + 1) limit seen.1 seen.2) [])
      ∧ (limit ≤ count → out (.char (.data v)) .abort true .discard [.runaways])
      ∧ gives (.char .shut) .shut true .outside [.framesGood] (.goodFrame count seq ok)
      ∧ out (.char .abort) .abort true .outside [.framesAborted]
      ∧ (∀ item : ReadItem, item = .char .violation ∨ item = .char .fill ∨ item = .inserted
          ∨ item = .char .mark ∨ item = .char .opn → out item .abort true .discard [.framesCut])
      ∧ ∀ item : ReadItem, item = .slip ∨ item = .slipMark ∨ item = .lostOpen →
          out item .abort true .discard [.slips, .framesCut])
    ∧ (g.tracker = .discard →
      out (.char .opn) .opn true (.inside 0 maxframe 0 true) []
      ∧ out .lostOpen .fill false .discard [.slips, .framesCut]
      ∧ ∀ item : ReadItem, item = .char .fill ∨ item = .char .mark ∨ item = .char .shut
          ∨ item = .char .abort ∨ item = .char (.data v) ∨ item = .char .violation
          ∨ item = .inserted ∨ item = .slipMark → out item .fill false .discard [])

/-- The clean stream (R14): read after read, DATA and terminators stand only inside a frame, OPEN, FILL
and MARK only between frames, no VIOLATION appears, and the source is between frames after the character
as the character says (R29). -/
def Obligations.CleanStreamIsWellFormed : Prop :=
  ∀ (g : Ingress) (maxframe : Nat), g.Wf →
    let r := g.readOnce maxframe
    (g.betweenFrames = true → r.emitted = .opn ∨ r.emitted = .fill ∨ r.emitted = .mark)
    ∧ (g.betweenFrames = false →
        (∃ v, r.emitted = .data v) ∨ r.emitted = .shut ∨ r.emitted = .abort)
    ∧ r.after.betweenFrames = !positionAfter r.emitted (!g.betweenFrames)
    ∧ r.after.Wf

/-- The end of a noise window (R5, R6, R7): the count is kept and a new window starts; a count at or above
the threshold makes QUIET and CARRY NOISY and keeps NOISY, its quiet windows at 0; below it, the fourth
quiet window in a row leaves NOISY by the traffic timer.  The traffic timer runs on (R6), and the tracker, the
buffer, the settings, the counters, the violation run and all else of the ingress stay as they are.
TRAFFIC_TIMER_EXPIRY returns CARRY to QUIET (R4).  Either change is announced (R8). -/
def Obligations.NoiseWindowAndTrafficTimer : Prop :=
  ∀ (s : State) (p : Port), s.phase = .run →
    (∀ w, s.ports[p].window = some w → s.ports[p].line.delivering = true →
      let g := s.ports[p]
      let loud := g.threshold.toNat ≤ w.count
      ∃ t : State, exec (.noiseWindowEnd p) s = .next t.arbitrate
        ∧ t.ports[p] = { g with
            lastWindow := w.count, window := some { pos := 0, count := 0 }
            line := t.ports[p].line, quietWindows := t.ports[p].quietWindows }
        ∧ (loud → t.ports[p].line = .noisy ∧ t.ports[p].quietWindows = 0)
        ∧ (¬ loud → g.line ≠ .noisy →
            t.ports[p].line = g.line ∧ t.ports[p].quietWindows = g.quietWindows)
        ∧ (¬ loud → g.line = .noisy → g.quietWindows ≠ 3 →
            t.ports[p].line = .noisy ∧ t.ports[p].quietWindows = g.quietWindows + 1)
        ∧ (¬ loud → g.line = .noisy → g.quietWindows = 3 →
            t.ports[p].line = (if g.traffic.isSome then .carry else .quiet) ∧ t.ports[p].quietWindows = 0)
        ∧ t.ports[p].traffic = g.traffic ∧ t.ports[p].tracker = g.tracker
        ∧ t.ports[p].violationRun = g.violationRun ∧ t.ports[p].counters = g.counters
        ∧ t.ports[p].buffer = g.buffer ∧ s.LineReach t p ∧ s.LineHeard t p)
    ∧ (s.ports[p].traffic.isSome → ∃ t : State, exec (.trafficTimerExpiry p) s = .next t.arbitrate
        ∧ t.ports[p] = { s.ports[p] with
            traffic := none
            line := if s.ports[p].line = .carry then .quiet else s.ports[p].line }
        ∧ s.LineReach t p ∧ s.LineHeard t p)

/-- The pattern check of a good frame in VERIFY (R22): the expected content counts pattern_good, and
pattern_gaps when another sequence was expected, and the next one becomes expected; else pattern_bad. -/
def Obligations.PatternCheckCountsAndExpects : Prop :=
  ∀ (g : Ingress) (patternLength length : Nat) (seq : Half) (agrees : Bool), g.mode = .verify →
    (length = patternLength → agrees = true →
      (g.patternCheck patternLength length seq agrees).expected = some (seq + 1)
      ∧ (g.expected = none ∨ g.expected = some seq →
          (g.patternCheck patternLength length seq agrees).counters = (g.bump .patternGood).counters)
      ∧ (∀ e, g.expected = some e → e ≠ seq →
          (g.patternCheck patternLength length seq agrees).counters
            = ((g.bump .patternGood).bump .patternGaps).counters))
    ∧ (length ≠ patternLength ∨ agrees = false →
      g.patternCheck patternLength length seq agrees = g.bump .patternBad)

/-! ### The connection map -/

/-- A change to the source already carried, taken in STEADY or OFF with none in flight, settles at once
with outcome CLEAN whatever its policy, and touches neither the selector nor its stream (R34). -/
def Obligations.SameSourceSettlesCleanAtOnce : Prop :=
  ∀ (s : State) (e : Port) (ch : Change),
    s.egresses[e].state = .steady ∨ s.egresses[e].state = .off → s.egresses[e].change = none →
    ch.target = s.egresses[e].current →
    s.takeChange e ch = s.settle e ch .clean
      ∧ (s.takeChange e ch).egresses[e].state = s.egresses[e].state
      ∧ (s.takeChange e ch).egresses[e].current = s.egresses[e].current
      ∧ (s.takeChange e ch).egresses[e].inside = s.egresses[e].inside
      ∧ (s.takeChange e ch).egresses[e].line = s.egresses[e].line
      ∧ (s.takeChange e ch).egresses[e].change = none

/-- When a source is between frames for egress `e` (R29): an ingress whose tracker is OUTSIDE or DISCARD and owes no
ABORT (R19), FILL always, PATTERN in IDLE and GAP and once its SHUT has been offered, and INJECT while no frame of the
egress is being sent.  HOLD offers no stream (R112). -/
def BetweenFrames (s : State) (e : Port) : Prop :=
  (∀ p : Port, s.betweenFrames e (.ingress p) = true ↔ s.ports[p].tracker.isInside = false
      ∧ s.ports[p].abortDue = false)
  ∧ s.betweenFrames e .fill = true ∧ s.betweenFrames e .hold = false
  ∧ (s.betweenFrames e .pattern = true ↔
      ∀ seq length gap pos, s.pattern.phase = .frame seq length gap pos → length < pos)
  ∧ (s.betweenFrames e .inject = true ↔ s.pool.views[e].sending = none)

/-- A change to another source taken in STEADY or OFF: from OUTSIDE it leaves at once (R36); from INSIDE under
CLEAN it drains (R37), and under FORCE it sends ABORT and leaves with cut record FORCED (R35).  A change away
from INJECT is reported to the injection buffer, which discards (R44, R136) and then, where the change cuts the
frame, frees it (R137); the notices of the two blocks come in any order that keeps each block's own (R153).
Leaving (R36, R37, R38) is OFF on HOLD and settled at once for HOLD; STEADY on a target that is between frames,
and settled; else JOINING, with FILL to come; when a source is between frames is as R29 says.  An egress that
leaves OFF sends FILL from then on while it joins, or on FILL itself (R120); where it joins another target at once,
nothing is put before that target's next character (R32, R38; log entry 10).  The outcome is CLEAN, or what the
change's cut record says. -/
def Obligations.AnotherSourceLeavesDrainsOrCuts : Prop :=
  ∀ (s : State) (e : Port) (ch : Change),
    let g := s.egresses[e]
    let away := g.current = .inject ∧ ch.target ≠ .inject
    (¬ away → g.change = none → s.takeChange e ch = s.actOn e ch)
    ∧ (away → s.Together [g.injectionPart e ch, g.selectorPart e ch] (s.takeChange e ch))
    ∧ (away → g.injectionPart e ch
        = (State.injectDiscard · e) :: if g.cutBy ch then [(State.injectCut · e)] else [])
    ∧ (¬ away → g.injectionPart e ch = [])
    ∧ (g.change = none → g.selectorPart e ch = [(State.actOn · e ch)])
    ∧ (g.state = .steady ∨ g.state = .off → ch.target ≠ g.current →
      (g.cutBy ch = true ↔ g.inside = true ∧ ch.policy = .force)
      ∧ (g.inside = false → s.actOn e ch = s.leaveFrame e ch)
      ∧ (g.inside = true → ch.policy = .clean →
        s.actOn e ch = s.setEgress e { g with state := .draining, change := some ch })
      ∧ (g.inside = true → ch.policy = .force →
        s.actOn e ch = s.cutLeave e { ch with cut := .forced }))
    ∧ s.cutLeave e ch
      = (s.setEgress e { g with line := some .abort, inside := false, held := none }).leaveFrame e ch
    ∧ (ch.target = .hold →
      s.leaveFrame e ch
        = (s.setEgress e
            { g with state := .off, current := .hold, change := none, inside := false
                     held := none }).settle e ch ch.cut.outcome)
    ∧ (ch.target ≠ .hold → s.betweenFrames e ch.target = true →
      s.leaveFrame e ch
        = (s.setEgress e
            { g with state := .steady, current := ch.target, change := none, inside := false
                     held := none
                     line := if g.state = .off ∧ ch.target = .fill then some .fill else g.line }).settle e ch
            ch.cut.outcome)
    ∧ (ch.target ≠ .hold → s.betweenFrames e ch.target = false →
      s.leaveFrame e ch
        = s.setEgress e { g with
            state := .joining, change := some ch, inside := false, held := none
            line := if g.state = .off then some .fill else g.line })
    ∧ BetweenFrames s e
    ∧ CutRecord.none.outcome = .clean ∧ CutRecord.forced.outcome = .forced
    ∧ CutRecord.deadline.outcome = .deadline

/-- A change taken while another is in flight: the earlier one settles SUPERSEDED at the moment of taking
(R40), with source_down clear (R42), and then the selector acts on the new one; a change away from INJECT is
reported to the injection buffer (R44), the notices of the two blocks coming in any order that keeps each block's
own (R153).  In JOINING the egress goes for the new target.  In DRAINING a target equal to the current source puts
it back to STEADY and settles CLEAN (R41), FORCE cuts, and CLEAN drains on under the new change, the deadline
starting afresh.  A character held back for the old drain's end (log entry 24) is on its way when the drain is
withdrawn, and DATA too when the deadline starts afresh; the INJECT view, whose DATA it was, then goes on to its
next one (R134), while its SHUT stays its own to send (R135). -/
def Obligations.ChangeInFlightIsSuperseded : Prop :=
  ∀ (s : State) (e : Port) (old ch : Change), s.egresses[e].change = some old →
    let g := s.egresses[e]
    let away := g.current = .inject ∧ ch.target ≠ .inject
    (¬ away → s.takeChange e ch = (s.settle e old .superseded).actOn e ch)
      ∧ (away → s.Together [g.injectionPart e ch, g.selectorPart e ch] (s.takeChange e ch))
      ∧ g.selectorPart e ch = [(State.settle · e old .superseded), (State.actOn · e ch)]
      ∧ (s.settle e old .superseded).egresses[e]
        = { g with planSettle := (s.settle e old .superseded).egresses[e].planSettle }
      ∧ (g.state = .joining → s.actOn e ch = s.leaveFrame e ch ∧ g.cutBy ch = false)
      ∧ (g.state = .draining →
        (g.cutBy ch = true ↔ ch.target ≠ g.current ∧ ch.policy = .force)
        ∧ (ch.target ≠ g.current → ch.policy = .force →
            s.actOn e ch = s.cutLeave e { ch with cut := .forced }))
      ∧ (g.state = .draining → ch.target = g.current →
        let steady := { g with state := .steady, change := none, held := none }
        let ends (v : State) : Prop := s.actOn e ch = v.settle e ch .clean
        (g.held = none → ends (s.setEgress e steady))
        ∧ (∀ c, g.held = some c → g.current ≠ .inject →
            ends (s.setEgress e { steady with line := some c, inside := positionAfter c g.inside }))
        ∧ (∀ c, g.held = some c → g.current = .inject → isTerminator c = true →
            ends (s.setEgress e steady))
        ∧ ∀ v, g.held = some (.data v) → g.current = .inject →
            ends ((s.setEgress e { steady with line := some (.data v) }).setPool (s.pool.viewPast e)))
      ∧ (g.state = .draining → ch.target ≠ g.current → ch.policy = .clean →
        let afresh := { g with change := some ch }
        let sent (v : Byte) : Egress :=
          { afresh with
            held := none, line := some (.data v)
            change := some { ch with deadline := ch.deadline.map fun n => n - 1 } }
        (g.held = none → s.actOn e ch = s.setEgress e afresh)
        ∧ (∀ c, g.held = some c → isTerminator c = true → s.actOn e ch = s.setEgress e afresh)
        ∧ (∀ v, g.held = some (.data v) → ch.deadline ≠ some 0 → g.current ≠ .inject →
            s.actOn e ch = s.setEgress e (sent v))
        ∧ ∀ v, g.held = some (.data v) → ch.deadline ≠ some 0 → g.current = .inject →
            s.actOn e ch = (s.setEgress e (sent v)).setPool (s.pool.viewPast e))

/-- The settle event goes to the requester (R42, R48, R54, R85): a CONNECT with notify set gives one SETTLED
notice and one without gives nothing; a plan's is handed to the plan controller; a switch is recorded by
the guard record that asked, if it is still in force.  source_down is set for an ingress that is not fit,
clear for FILL, PATTERN, INJECT and HOLD, and never set with SUPERSEDED. -/
def Obligations.SettleGoesToTheRequester : Prop :=
  ∀ (s : State) (e : Port) (ch : Change) (o : Settlement),
    let down := decide (o ≠ .superseded) && s.sourceDown ch.target
    (∀ tag, ch.requester = .connect tag true →
      s.settle e ch o = s.notify (.settled e tag ch.target o down))
    ∧ (∀ tag, ch.requester = .connect tag false → s.settle e ch o = s)
    ∧ (∀ id, ch.requester = .plan id →
      s.settle e ch o
        = s.setEgress e
            { s.egresses[e] with planSettle := some { id := id, outcome := o, sourceDown := down } })
    ∧ (∀ ident g, ch.requester = .guard ident → s.guards[e] = some g → g.ident = ident →
      s.settle e ch o
        = s.setGuard e (some { g with
            last := some
              { target := if s.egresses[e].entry.source = ch.target then .primary else .standby
                outcome := o, sourceDown := down } }))
    ∧ (∀ ident, ch.requester = .guard ident →
        s.guards[e].map (fun g => g.ident) ≠ some ident → s.settle e ch o = s)
    ∧ (∀ p : Port, s.sourceDown (.ingress p)
        = !(decide (s.ports[p].line = .quiet) || decide (s.ports[p].line = .carry)))
    ∧ s.sourceDown .fill = false ∧ s.sourceDown .pattern = false ∧ s.sourceDown .inject = false
    ∧ s.sourceDown .hold = false

/-- A change on one egress disturbs no other (R49): every other selector, guard record and INJECT view stays as it
is, and so does every assembly context of another target and the next frame id; of the egress itself the entry and
the guard's state stay, and of the rest of the part everything but the free stock, which takes what a discard or a
cut frees (R136, R137), and the notice queue with what the arbiter starts (R166) and the pending marks of what it
sends (R148). -/
def Obligations.ChangeOnOneEgressDisturbsNoOther : Prop :=
  ∀ (s : State) (e : Port) (ch : Change),
    let t := s.takeChange e ch
    (∀ f : Port, f ≠ e → t.egresses[f] = s.egresses[f] ∧ t.guards[f] = s.guards[f]
      ∧ t.pool.views[f] = s.pool.views[f])
    ∧ (∀ (k : ContextId) (c : Context), s.pool.contexts[k] = some c → c.target ≠ e →
        t.pool.contexts[k] = some c)
    ∧ (∀ k : ContextId, s.pool.contexts[k] = none → t.pool.contexts[k] = none)
    ∧ t.pool.nextId = s.pool.nextId
    ∧ t.egresses[e].entry = s.egresses[e].entry
    ∧ t.guards[e].map (fun g => g.state) = s.guards[e].map (fun g => g.state)
    ∧ t.ports = s.ports ∧ t.pattern = s.pattern ∧ t.plans = s.plans ∧ t.claims = s.claims
    ∧ t.group = s.group ∧ t.senses = s.senses ∧ t.maxframe = s.maxframe ∧ t.timeBase = s.timeBase
    ∧ t.phase = s.phase ∧ t.straps = s.straps ∧ t.strapPins = s.strapPins
    ∧ t = { s with
        egresses := t.egresses, guards := t.guards, pool := t.pool, conds := t.conds, notices := t.notices
        link := t.link, draws := t.draws }
    ∧ s.NoticesOnly t (fun _ => False)
    ∧ (s.link.mtx.isSome → s.notices.entries <+: t.notices.entries)

/-- CONNECT (R45, R46): the entry replaced whole, a new guard record initialised on PRIMARY (R55) or none,
and a change handed to the selector; the reply is OK.  A hold-off of 0 with an unwell primary expires after
the change has been taken (R55).  An egress above 15, an entry that is not valid (R186) or a flag above 1
is refused BAD_FIELD, and a claimed egress EGRESS_CLAIMED. -/
def Obligations.ConnectReplacesEntryAndStartsChange : Prop :=
  ∀ (s : State) (m : Message) (rest : List Message) (e b0 b1 b2 b3 b4 b5 dh dl n : Byte),
    s.CanTake m rest 0x20 → m.payload = [e, b0, b1, b2, b3, b4, b5, dh, dl, n] →
    (16 ≤ e.toNat ∨ Entry.decode b0 b1 b2 b3 b4 b5 = none ∨ 2 ≤ n.toNat →
      exec .connect s = .next ((s.taken rest).replied m (Answer.refuse .badField)))
    ∧ ∀ (p : Port) (entry : Entry), e = natByte p.val → Entry.decode b0 b1 b2 b3 b4 b5 = some entry →
      n.toNat < 2 →
      (s.claims[p].isSome →
        exec .connect s = .next ((s.taken rest).replied m (Answer.refuse .egressClaimed)))
      ∧ (s.claims[p] = none →
        let t := (s.taken rest).setEgress p { s.egresses[p] with entry := entry }
        let ch : Change :=
          { target := entry.source, policy := entry.policy
            deadline := if (readHalf dh dl).toNat = 0 then none else some (readHalf dh dl).toNat
            requester := .connect m.tag (decide (n = 1)), cut := .none }
        (entry.guard = none →
          exec .connect s = .next (((t.setGuard p none).takeChange p ch).replied m (Answer.ok [])))
        ∧ ∀ f, entry.guard = some f →
          let u := (t.setGuard p (some
            { ident := s.guardSerial
              state := if t.primaryWell p f then .watching else .holdoff (f.holdOff * 1000000)
              last := none })).setSerial (s.guardSerial + 1)
          (t.primaryWell p f = true ∨ f.holdOff ≠ 0 →
            exec .connect s = .next ((u.takeChange p ch).replied m (Answer.ok [])))
          ∧ (t.primaryWell p f = false → f.holdOff = 0 →
            exec .connect s
              = .next (((u.takeChange p ch).holdOffExpired p f).replied m (Answer.ok []))))

/-- DRAIN_END, DEADLINE_EXPIRY and JOIN_COMPLETE (R37, R38, R39): the terminator is sent and the egress
leaves the frame; ABORT is sent in its place and the cut record is DEADLINE; the egress is STEADY on its
target and the change settles.  A frame of INJECT is reported sent or cut (R44), its notice and that of a settle
coming in either order (R153).  The model's choices: a commanded DEADLINE_EXPIRY is taken whatever count remains
(log entry 6), and a JOIN_COMPLETE whose target is in a frame changes nothing (log entry 1). -/
def Obligations.DrainsAndJoinsComplete : Prop :=
  ∀ (s : State) (e : Port) (ch : Change), s.phase = .run → s.egresses[e].change = some ch →
    let g := s.egresses[e]
    (∀ c, g.state = .draining → g.held = some c → isTerminator c = true →
      let t := s.setEgress e { g with line := some c, inside := false, held := none }
      (g.current ≠ .inject → exec (.drainEnd e) s = .next (t.leaveFrame e ch).arbitrate)
      ∧ (g.current = .inject → ∃ u : State, exec (.drainEnd e) s = .next u.arbitrate
          ∧ t.Together [[(State.injectSent · e)], [(State.leaveFrame · e ch)]] u))
    ∧ (g.state = .draining → ch.deadline.isSome →
      let t := s.setEgress e { g with line := some .abort, inside := false, held := none }
      let cut : Change := { ch with cut := .deadline }
      (g.current ≠ .inject → exec (.deadlineExpiry e) s = .next (t.leaveFrame e cut).arbitrate)
      ∧ (g.current = .inject → ∃ u : State, exec (.deadlineExpiry e) s = .next u.arbitrate
          ∧ s.Together [[(State.injectCut · e)], [(State.cutLeave · e cut)]] u)
      ∧ s.cutLeave e cut = t.leaveFrame e cut)
    ∧ (g.state = .joining → s.betweenFrames e ch.target = true →
      exec (.joinComplete e) s
        = .next (((s.setEgress e
            { g with state := .steady, current := ch.target, change := none }).settle e ch
              ch.cut.outcome).arbitrate))
    ∧ (g.state = .joining → s.betweenFrames e ch.target = false →
      exec (.joinComplete e) s = .next s)
    ∧ ∀ c : Character, isTerminator c = true ↔ c = .shut ∨ c = .abort

/-- What an egress sends of its source's next character (R31, R37, R39): in STEADY the character itself,
INSIDE from an OPEN to a terminator (R30); in
DRAINING the same, each lowering the deadline by one; in OFF and JOINING nothing.  That the terminator, and
whatever is due once the deadline has run out, is held back until DRAIN_END or DEADLINE_EXPIRY is taken is the
model's reading (log entry 24).  In a new character time of its own the egress sends nothing in OFF (R120), FILL
in JOINING (R38) and from the FILL source (R111). -/
def Obligations.SelectorForwardsItsSource : Prop :=
  ∀ (g : Egress) (src : Source) (c : Character),
    (g.current ≠ src → g.receive src c = g)
    ∧ (g.current = src → g.state = .steady →
      g.receive src c = { g with line := some c, inside := positionAfter c g.inside })
    ∧ (g.state = .off ∨ g.state = .joining → g.receive src c = g)
    ∧ (∀ ch, g.current = src → g.state = .draining → g.change = some ch → g.held = none →
      (c = .shut ∨ c = .abort ∨ ch.deadline = some 0 → g.receive src c = { g with held := some c })
      ∧ (c ≠ .shut → c ≠ .abort → ch.deadline = none → g.receive src c = { g with line := some c })
      ∧ ∀ n, c ≠ .shut → c ≠ .abort → ch.deadline = some (n + 1) →
        g.receive src c = { g with line := some c, change := some { ch with deadline := some n } })
    ∧ (g.state = .off → g.newTime = { g with line := none })
    ∧ (g.state = .joining → g.newTime = { g with line := some .fill })
    ∧ (g.state = .steady → g.current = .fill → g.newTime = { g with line := some .fill })
    ∧ (g.state = .steady → g.current ≠ .fill → g.newTime = g)
    ∧ (g.state = .draining → g.newTime = g)
    ∧ ∀ inside : Bool, positionAfter .opn inside = true ∧ positionAfter .shut inside = false
      ∧ positionAfter .abort inside = false
      ∧ (c ≠ .opn → c ≠ .shut → c ≠ .abort → positionAfter c inside = inside)

/-- MAP_READ reports sixteen records of 15 bytes, taken at one moment, and changes nothing (R50, R180): the entry
record, the selector condition, the current source and the target, the claim, the guard condition, the time left
on a guard timer and the last switch, in the codes of R174 and R176.  A guard timer that has run out while its
expiry is still untaken reads as 1 ms, for R180 lets none be read at 0 (log entry 31). -/
def Obligations.MapReadReportsAndChangesNothing : Prop :=
  ∀ (s : State) (m : Message) (rest : List Message), s.CanTake m rest 0x21 →
    (m.payload = [] →
      exec .mapRead s = .next ((s.taken rest).replied m (Answer.ok (allPorts.flatMap s.mapRecord))))
    ∧ (m.payload ≠ [] →
        exec .mapRead s = .next ((s.taken rest).replied m (Answer.refuse .badLength)))
    ∧ (∀ e : Port, (s.mapRecord e).length = 15
        ∧ s.mapRecord e
          = s.egresses[e].entry.encode
            ++ [s.egresses[e].conditionCode, s.egresses[e].current.code,
              (match s.egresses[e].change with
                | none => 0xFF
                | some ch => ch.target.code),
              (match s.claims[e] with
                | none => 0
                | some id => id),
              (match s.guards[e] with
                | none => 0xFF
                | some r => r.state.code)]
            ++ natThree (match s.guards[e].map Guard.state with
                | some (.holdoff left) => max 1 ((left + 99999) / 100000)
                | some (.restoreWait left) => max 1 ((left + 99999) / 100000)
                | _ => 0)
            ++ [match s.guards[e].bind Guard.last with
                | none => 0xFF
                | some l => l.outcome.code + (if l.target = .standby then 4 else 0)
                    + (if l.sourceDown then 8 else 0)])
    ∧ (allPorts.flatMap s.mapRecord).length = 240
    ∧ (∀ g : Egress, g.conditionCode
        = match g.state with
          | .off => 0
          | .joining => 1
          | .steady => if g.inside then 3 else 2
          | .draining => 4)
    ∧ (∀ p : Port, (Source.ingress p).code.toNat = p.val)
    ∧ [Source.fill, .pattern, .inject, .hold].map Source.code = [16, 17, 18, 19]
    ∧ [Settlement.clean, .forced, .deadline, .superseded].map Settlement.code = [0, 1, 2, 3]
    ∧ (∀ n sel, [GuardState.watching, .holdoff n, .primaryDown, .onStandby, .restoreWait n, .locked, .forced,
        .suspended .primary .none, .suspended .standby .none, .suspended sel .locked,
        .suspended sel .forced, .suspendedFired].map GuardState.code
          = [0, 1, 2, 3, 4, 5, 6, 7, 8, 9, 10, 11])
    ∧ ∀ n : Nat, n < 16777216 →
        (natThree n).map BitVec.toNat = [n / 65536, n / 256 % 256, n % 256]

/-- Where the fields of an entry record stand in its six bytes (R185). -/
def EntryLayout (en : Entry) (b0 b1 b2 b3 b4 b5 : Byte) : Prop :=
  (∀ p : Port, en.source = .ingress p → b0.toNat = p.val)
  ∧ (en.source = .fill → b0 = 16) ∧ (en.source = .pattern → b0 = 17) ∧ (en.source = .inject → b0 = 18)
  ∧ (en.source = .hold → b0 = 19)
  ∧ b1.getLsbD 7 = en.guard.isSome ∧ b1.getLsbD 6 = decide (en.policy = .force)
  ∧ (en.guard = none →
    (∀ i : Nat, i < 6 → b1.getLsbD i = false) ∧ b2 = 0 ∧ b3 = 0 ∧ b4 = 0 ∧ b5 = 0)
  ∧ ∀ g, en.guard = some g →
    b1.getLsbD 5 = g.requireTraffic ∧ b1.getLsbD 4 = decide (g.restore ≠ .stay)
    ∧ (b1.extractLsb' 0 4).toNat = g.standby.val
    ∧ b2.toNat * 256 + b3.toNat = g.holdOff
    ∧ b4.toNat * 256 + b5.toNat = match g.restore with
      | .stay => 0
      | .revert seconds => seconds

/-- The six bytes of a valid entry record are read back as that record, and what is read is valid (R26, R185,
R186): a record read from the part may be sent back unchanged.  A record with a guard is valid on an ingress as
its source, another as its standby, a hold-off of up to 1000 steps of 10 ms and, under REVERT, 1 to 900 s
(R26).  Byte 0 is the source code; byte 1 has guard present, policy, require_traffic and restore mode in bits 7
to 4 and the standby in bits 3 to 0; the hold-off and the wait-to-restore follow, each high byte first. -/
def Obligations.EntryRecordsRoundTrip : Prop :=
  (∀ en : Entry, en.valid = true ↔ ∀ g, en.guard = some g →
    (∃ p : Port, en.source = .ingress p ∧ g.standby ≠ p) ∧ g.holdOff ≤ 1000
      ∧ ∀ seconds, g.restore = .revert seconds → 1 ≤ seconds ∧ seconds ≤ 900)
  ∧ (∀ en : Entry, en.valid = true →
    ∃ b0 b1 b2 b3 b4 b5, en.encode = [b0, b1, b2, b3, b4, b5] ∧ EntryLayout en b0 b1 b2 b3 b4 b5
      ∧ Entry.decode b0 b1 b2 b3 b4 b5 = some en)
  ∧ ∀ (b0 b1 b2 b3 b4 b5 : Byte) (en : Entry), Entry.decode b0 b1 b2 b3 b4 b5 = some en →
      en.valid = true ∧ en.encode = [b0, b1, b2, b3, b4, b5]

/-! ### Guards -/

/-- GUARD_CONTROL (R62 to R65): LOCK ends in LOCKED and FORCE_STANDBY in FORCED, with a host switch when
the selection is the other one, and neither latches a condition (R53); CLEAR leaves an automatic guard as
it is, and evaluates from LOCKED and FORCED, a hold-off of 0 with an unwell primary expiring at once.  The reply
carries the guard condition and the selection in the codes of R176.  The refusals come in the order of R62. -/
def Obligations.GuardControlAppliesOverrides : Prop :=
  ∀ (s : State) (m : Message) (rest : List Message) (e c : Byte), s.CanTake m rest 0x22 →
    m.payload = [e, c] →
    (16 ≤ e.toNat ∨ 3 ≤ c.toNat →
      exec .guardControl s = .next ((s.taken rest).replied m (Answer.refuse .badField)))
    ∧ ∀ p : Port, e = natByte p.val → c.toNat < 3 →
      (s.egresses[p].entry.guard = none →
        exec .guardControl s = .next ((s.taken rest).replied m (Answer.refuse .badField)))
      ∧ ∀ r f, s.guards[p] = some r → s.egresses[p].entry.guard = some f →
        (s.claims[p].isSome →
          exec .guardControl s = .next ((s.taken rest).replied m (Answer.refuse .egressClaimed)))
        ∧ (s.claims[p] = none →
          let t := s.taken rest
          let ends (u : State) : Prop :=
            exec .guardControl s = .next (u.replied m (Answer.ok (u.guardReport p)))
          (c = 0 → r.state.selection = some .standby → ends (t.guardSwitch p .primary false .locked))
          ∧ (c = 0 → r.state.selection = some .primary → r.state ≠ .locked →
              ends (t.guardTo p .locked))
          ∧ (c = 0 → r.state = .locked → ends t)
          ∧ (c = 1 → r.state.selection = some .primary →
              ends (t.guardSwitch p .standby false .forced))
          ∧ (c = 1 → r.state.selection = some .standby → r.state ≠ .forced →
              ends (t.guardTo p .forced))
          ∧ (c = 1 → r.state = .forced → ends t)
          ∧ (c = 2 → r.state = .locked → t.primaryWell p f = true → ends (t.guardTo p .watching))
          ∧ (c = 2 → r.state = .locked → t.primaryWell p f = false → f.holdOff ≠ 0 →
              ends (t.guardTo p (.holdoff (f.holdOff * 1000000))))
          ∧ (c = 2 → r.state = .locked → t.primaryWell p f = false → f.holdOff = 0 →
              (t.standbyWell f = true → ends (t.guardSwitch p .standby true .onStandby))
              ∧ (t.standbyWell f = false → ends (t.guardTo p .primaryDown)))
          ∧ (c = 2 → r.state = .forced → ends (t.standbyEvaluation p f))
          ∧ (c = 2 → r.state ≠ .locked → r.state ≠ .forced → ends t)
          ∧ ∀ (u : State) (g : Guard), u.guards[p] = some g →
              u.guardReport p = [g.state.code, match g.state.selection with
                | some .primary => 0
                | some .standby => 1
                | none => 0xFF]
              ∧ (∀ n, [GuardState.watching, .holdoff n, .primaryDown, .onStandby, .restoreWait n, .locked,
                  .forced].map (fun x => (x.code, x.selection))
                = [(0, some .primary), (1, some .primary), (2, some .primary), (3, some .standby),
                  (4, some .standby), (5, some .primary), (6, some .standby)]))

/-- A switch (R53): the guard takes its new state, an automatic switch is one occurrence of GUARD(e), id
20 + e, and a host switch none, and the selector takes a change to the primary or the standby with the
entry's policy and no deadline, asked for by this guard record.  What the guard, the injection buffer and the
selector do comes together, the notices in any order that keeps each block's own (R153).  A guard that takes a new
state without a switch moves nothing else. -/
def Obligations.GuardSwitchHandsOverAChange : Prop :=
  ∀ (s : State) (e : Port) (sel : Selection) (next : GuardState) (r : Guard) (f : GuardFields),
    s.guards[e] = some r → s.egresses[e].entry.guard = some f →
    let en := s.egresses[e].entry
    let g := s.egresses[e]
    let ch : Change :=
      { target := match sel with | .primary => en.source | .standby => .ingress f.standby
        policy := en.policy, deadline := none, requester := .guard r.ident, cut := .none }
    s.guardSwitch e sel false next = (s.setGuard e (some { r with state := next })).takeChange e ch
      ∧ s.guardSwitch e sel true next = s.guardMoves e (.switch sel next)
      ∧ s.guardParts e (.switch sel next)
        = [[(State.guardTo · e next), (State.occur · (guardCond e))], g.injectionPart e ch,
            g.selectorPart e ch]
      ∧ s.guardParts e (.to next) = [[(State.guardTo · e next)]]
      ∧ s.guardParts e .stay = []
      ∧ (∀ m : GuardMove, s.Together (s.guardParts e m) (s.guardMoves e m))
      ∧ s.guardMoves e (.to next) = s.guardTo e next ∧ s.guardMoves e .stay = s
      ∧ s.guardTo e next = s.setGuard e (some { r with state := next })
      ∧ (guardCond e).val = 20 + e.val

/-- What the two timer expiries of a guard do (R57, R60, R61). -/
def GuardTimerExpiries (s : State) (e : Port) (r : Guard) (f : GuardFields) : Prop :=
  (∀ left, r.state = .holdoff left → s.standbyWell f = true →
    exec (.holdOffExpiry e) s = .next (s.guardSwitch e .standby true .onStandby).arbitrate)
  ∧ (∀ left, r.state = .holdoff left → s.standbyWell f = false →
    exec (.holdOffExpiry e) s = .next (s.guardTo e .primaryDown).arbitrate)
  ∧ (∀ left, r.state = .restoreWait left →
    exec (.waitToRestoreExpiry e) s = .next (s.guardSwitch e .primary true .watching).arbitrate)
  ∧ ((∀ left, r.state ≠ .holdoff left) → exec (.holdOffExpiry e) s = .next s)
  ∧ ((∀ left, r.state ≠ .restoreWait left) → exec (.waitToRestoreExpiry e) s = .next s)

/-- The standby evaluation of R59: an automatic switch back from a standby that is not well to a primary that
is; else the wait-to-restore for a well primary under REVERT, and ON_STANDBY. -/
def StandbyEvaluation (s : State) (e : Port) (f : GuardFields) : Prop :=
  let primary := s.primaryWell e f
  let standby := s.standbyWell f
  (primary = true → standby = false → s.evaluationMove e f = .switch .primary .watching)
  ∧ (∀ seconds, primary = true → standby = true → f.restore = .revert seconds →
    s.evaluationMove e f = .to (.restoreWait (seconds * 100000000)))
  ∧ (primary = true → standby = true → f.restore = .stay → s.evaluationMove e f = .to .onStandby)
  ∧ (primary = false → s.evaluationMove e f = .to .onStandby)
  ∧ s.standbyEvaluation e f = s.guardMoves e (s.evaluationMove e f)

/-- What a guard hears of a change of the line of ingress `p`: nothing while its grade stays or when it does
not watch `p`; else that its primary or its standby fails or recovers (R51). -/
def GuardHearing (s : State) (e : Port) (f : GuardFields) : Prop :=
  (∀ (p : Port) (old new : LineState),
    let was := old.well f.requireTraffic
    let is := new.well f.requireTraffic
    let primary := s.egresses[e].entry.source = .ingress p
    (was = is → s.guardHears e p old new = none)
    ∧ (primary → was = true → is = false → s.guardHears e p old new = some .primaryFails)
    ∧ (primary → was = false → is = true → s.guardHears e p old new = some .primaryRecovers)
    ∧ (¬ primary → f.standby = p → was = true → is = false →
        s.guardHears e p old new = some .standbyFails)
    ∧ (¬ primary → f.standby = p → was = false → is = true →
        s.guardHears e p old new = some .standbyRecovers)
    ∧ (¬ primary → f.standby ≠ p → s.guardHears e p old new = none))
  ∧ ∀ l : LineState, (l.well false = true ↔ l = .quiet ∨ l = .carry) ∧ (l.well true = true ↔ l = .carry)

/-- The automatic transitions of R56 to R60, state by state and event by event, as the table of R61 gathers
them, and the four states that ignore every line event (R63, R64, R66).  HOLD_OFF_EXPIRY (R57) reads the
standby's grade: an automatic switch to a well standby and ON_STANDBY, or PRIMARY_DOWN and no switch; a hold-off
of 0 comes to that at once (R56).  WAIT_TO_RESTORE_EXPIRY (R60) is an automatic switch to the primary and
WATCHING.  Neither acts in another state of the guard (log entry 1).  The standby evaluation is as R59 has it.
The event a guard hears of a line is a change of grade of its primary or standby, well being fit, or
fit-with-traffic when the entry requires traffic (R51, R8). -/
def Obligations.GuardTransitionTable : Prop :=
  ∀ (s : State) (e : Port) (r : Guard) (f : GuardFields), s.guards[e] = some r →
    s.egresses[e].entry.guard = some f →
    let move (ev : GuardEvent) : GuardMove := s.eventMove e f r.state ev
    (s.phase = .run → GuardTimerExpiries s e r f)
    ∧ (∀ ev, s.guardEventParts e ev = s.guardParts e (move ev) ∧ s.guardEvent e ev = s.guardMoves e (move ev))
    ∧ (r.state = .watching →
      (f.holdOff ≠ 0 → move .primaryFails = .to (.holdoff (f.holdOff * 1000000)))
      ∧ (f.holdOff = 0 → s.standbyWell f = true → move .primaryFails = .switch .standby .onStandby)
      ∧ (f.holdOff = 0 → s.standbyWell f = false → move .primaryFails = .to .primaryDown)
      ∧ move .primaryRecovers = .stay ∧ move .standbyFails = .stay ∧ move .standbyRecovers = .stay)
    ∧ (∀ left, r.state = .holdoff left →
      move .primaryRecovers = .to .watching ∧ move .primaryFails = .stay ∧ move .standbyFails = .stay
      ∧ move .standbyRecovers = .stay)
    ∧ (r.state = .primaryDown →
      move .primaryRecovers = .to .watching ∧ move .standbyRecovers = .switch .standby .onStandby
      ∧ move .primaryFails = .stay ∧ move .standbyFails = .stay)
    ∧ (r.state = .onStandby →
      move .primaryRecovers = s.evaluationMove e f
      ∧ (s.primaryWell e f = true → move .standbyFails = .switch .primary .watching)
      ∧ (s.primaryWell e f = false → move .standbyFails = .stay)
      ∧ move .primaryFails = .stay ∧ move .standbyRecovers = .stay)
    ∧ (∀ left, r.state = .restoreWait left →
      move .primaryFails = .to .onStandby ∧ move .standbyFails = .switch .primary .watching
      ∧ move .primaryRecovers = .stay ∧ move .standbyRecovers = .stay)
    ∧ (r.state = .locked ∨ r.state = .forced ∨ r.state = .suspendedFired
        ∨ (∃ sel o, r.state = .suspended sel o) → ∀ ev, move ev = .stay)
    ∧ StandbyEvaluation s e f
    ∧ (∀ p : Port, s.egresses[e].entry.source = .ingress p →
        s.primaryWell e f = s.ports[p].line.well f.requireTraffic)
    ∧ s.standbyWell f = s.ports[f.standby].line.well f.requireTraffic
    ∧ GuardHearing s e f

/-! ### Plans -/

/-- PLAN_LOAD (R72, R73): the length, then the fields, then an egress edited twice, an id in use and a full
table, in that order; else the plan stands LOADED in the lowest-numbered FREE slot, whose number is the
reply.  What it stores is what the request says, each edit being the one whose seven bytes stand in the request,
and a plan it stores has met the checks of R72.  A request that meets them, written from any plan with valid
entries, is carried out and stores that plan. -/
def Obligations.PlanLoadTakesTheLowestFreeSlot : Prop :=
  (∀ (s : State) (m : Message) (rest : List Message)
      (id kind index ah al gh gl dh dl n count : Byte) (edits : List Byte), s.CanTake m rest 0x30 →
    m.payload = id :: kind :: index :: ah :: al :: gh :: gl :: dh :: dl :: n :: count :: edits →
    let read := readPlan id kind index (readHalf ah al).toNat (readHalf gh gl).toNat (readHalf dh dl).toNat
      n count edits
    let refused (st : Status) : Prop :=
      exec .planLoad s = .next ((s.taken rest).replied m (Answer.refuse st))
    (edits.length ≠ 7 * count.toNat → refused .badLength)
    ∧ (edits.length = 7 * count.toNat → read = none → refused .badField)
    ∧ ∀ p, edits.length = 7 * count.toNat → read = some p →
      (¬ (p.edits.map (·.egress)).Nodup → refused .dupEgress)
      ∧ ((p.edits.map (·.egress)).Nodup →
          (∃ (k : SlotId) (q : Plan), s.plans[k] = some q ∧ q.id = id) → refused .idInUse)
      ∧ ((p.edits.map (·.egress)).Nodup →
          (∀ (k : SlotId) (q : Plan), s.plans[k] = some q → q.id ≠ id) →
          ((∀ k : SlotId, s.plans[k] ≠ none) → refused .noSlot)
          ∧ ∀ k : SlotId, s.plans[k] = none → (∀ j : SlotId, j < k → s.plans[j] ≠ none) →
            exec .planLoad s
              = .next (((s.taken rest).setPlan k (some p)).replied m (Answer.ok [natByte k.val]))))
  ∧ (∀ (id kind index n count : Byte) (arm wait drain : Nat) (edits : List Byte) (p : Plan),
      edits.length = 7 * count.toNat → readPlan id kind index arm wait drain n count edits = some p →
      id ≠ 0 ∧ 1 ≤ count.toNat ∧ count.toNat ≤ 16 ∧ p.edits.length = count.toNat
        ∧ p.id = id ∧ p.state = .loaded ∧ p.armExpiry = arm ∧ p.groupWait = wait
        ∧ p.drainDeadline = drain ∧ p.trigger.code = kind ∧ p.trigger.index = index
        ∧ flagByte p.fireNotice = n ∧ p.timer = none ∧ p.fireTime = none ∧ p.doneTime = none
        ∧ p.reason = none ∧ p.epochAtFire = none
        ∧ (p.trigger.isGroup = true → arm = 0 ∧ wait ≠ 0) ∧ (p.trigger.isGroup = false → wait = 0)
        ∧ (∀ d ∈ p.edits, d.entry.valid = true ∧ d.outcome = none)
        ∧ (p.edits.flatMap fun d => natByte d.egress.val :: d.entry.encode) = edits)
  ∧ (∀ (s : State) (m : Message) (rest : List Message) (id ah al gh gl dh dl count : Byte)
      (trigger : Trigger) (notice : Bool) (edits : List Edit) (k : SlotId), s.CanTake m rest 0x30 →
    let arm := (readHalf ah al).toNat
    let wait := (readHalf gh gl).toNat
    m.payload = id :: trigger.code :: trigger.index :: ah :: al :: gh :: gl :: dh :: dl
        :: flagByte notice :: count
        :: edits.flatMap (fun d => natByte d.egress.val :: d.entry.encode) →
    id ≠ 0 → 1 ≤ edits.length → edits.length ≤ 16 → count.toNat = edits.length →
    (trigger.isGroup = true → arm = 0 ∧ wait ≠ 0) → (trigger.isGroup = false → wait = 0) →
    (∀ d ∈ edits, d.entry.valid = true ∧ d.outcome = none) → (edits.map (·.egress)).Nodup →
    (∀ (j : SlotId) (q : Plan), s.plans[j] = some q → q.id ≠ id) →
    s.plans[k] = none → (∀ j : SlotId, j < k → s.plans[j] ≠ none) →
    exec .planLoad s
      = .next (((s.taken rest).setPlan k (some
          { id := id, state := .loaded, trigger := trigger, armExpiry := arm, groupWait := wait
            drainDeadline := (readHalf dh dl).toNat, fireNotice := notice, edits := edits, timer := none
            fireTime := none, doneTime := none, reason := none, epochAtFire := none })).replied m
          (Answer.ok [natByte k.val])))
  ∧ (∀ (p : Port) (n : SenseId), [Trigger.now, .fire, .mark p, .sense n, .group .none,
        .group .sourcesFit].map (fun t => (t.code, t.index))
      = [(0, 0), (1, 0), (2, natByte p.val), (3, natByte n.val), (4, 0), (4, 1)])

/-- A guard suspended by a plan's claim remembers its selection and its override (R66, R176). -/
def GuardSuspends (r : Guard) (after : Option Guard) : Prop :=
  let waits (sel : Selection) (o : Override) : Prop := after = some { r with state := .suspended sel o }
  (r.state = .locked → waits .primary .locked) ∧ (r.state = .forced → waits .standby .forced)
  ∧ (r.state = .watching ∨ (∃ left, r.state = .holdoff left) ∨ r.state = .primaryDown →
      waits .primary .none)
  ∧ (r.state = .onStandby ∨ (∃ left, r.state = .restoreWait left) → waits .standby .none)

/-- From `s` to `u` the plan `p` in slot `k` has been armed (R76, steps 1 to 4): every edited egress is claimed
and its guard suspended (R66), the plan is ARMED with its timer, and a GROUP plan is told to the group interface
(R101), which holds its ready condition and the ingresses its edits name (R102).  A member in LOW_IDLE goes to
RELEASED, with the 2 us running when GRDY reads HIGH (R104), if the condition is met, and else to LOW_WAIT; any
other stays in its state. Nothing else changes. -/
def PlanArmed (s u : State) (k : SlotId) (p : Plan) : Prop :=
  let group := p.trigger.isGroup
  u = { s with plans := u.plans, claims := u.claims, guards := u.guards, group := u.group }
  ∧ u.plans[k] = some
      { p with
        state := .armed
        timer :=
          if group then some (p.groupWait * 100000)
          else if p.armExpiry = 0 then none else some (p.armExpiry * 100000) }
  ∧ (∀ j : SlotId, j ≠ k → u.plans[j] = s.plans[j])
  ∧ (∀ e : Port, u.claims[e] = if e ∈ p.edits.map (·.egress) then some p.id else s.claims[e])
  ∧ (∀ e : Port, u.guards[e]
      = if e ∈ p.edits.map (·.egress) then (s.guardSuspend e).guards[e] else s.guards[e])
  ∧ (∀ (e : Port) (r : Guard), e ∈ p.edits.map (·.egress) → s.guards[e] = some r →
      GuardSuspends r u.guards[e])
  ∧ (group = false → u.group = s.group)
  ∧ (group = true → ∃ record : GroupPlan, u.group = { s.group with
        membership := u.group.membership, plan := some record, faultTimer := u.group.faultTimer }
    ∧ record.id = p.id ∧ record.applying = false ∧ p.trigger = .group record.ready
    ∧ (∀ q : Port, q ∈ record.sources ↔ ∃ d ∈ p.edits, d.entry.source = .ingress q)
    ∧ (s.group.membership = .member .lowIdle →
      u.group.membership = .member (
        if s.groupReady record then .released (if s.group.high then some 200 else none)
        else .lowWait)
      ∧ u.group.faultTimer = if s.groupReady record then none else s.group.faultTimer)
    ∧ (s.group.membership ≠ .member .lowIdle → u.group.membership = s.group.membership
      ∧ u.group.faultTimer = s.group.faultTimer))

/-- PLAN_ARM (R75, R76): the refusals in their order, CLAIM_CONFLICT naming the lowest claimed egress and the
plan that holds it; else every edited egress is claimed and its guard suspended (R66), the plan is ARMED with
its timer, and a GROUP plan is told to the group interface (R101).  The reply is the state code, ARMED.  A NOW
plan, once so armed, fires at once (R85, R86), with its FIRED notice and its edits handed over as at any fire,
and the reply is APPLYING.  A suspended guard remembers its selection and override.  The group plan record holds
the ready condition and the ingresses the edits name (R102); a member in LOW_IDLE goes to RELEASED, with the 2
us running when GRDY reads HIGH (R104), if the condition is met, and else to LOW_WAIT, and a member in another
state stays in it.  Nothing else changes. -/
def Obligations.PlanArmClaimsAndArms : Prop :=
  ∀ (s : State) (m : Message) (rest : List Message) (id : Byte), s.CanTake m rest 0x31 →
    m.payload = [id] →
    let refused (st : Status) : Prop :=
      exec .planArm s = .next ((s.taken rest).replied m (Answer.refuse st))
    ((id = 0 → refused .badField)
    ∧ (id ≠ 0 → s.findPlan id = none → refused .noPlan)
    ∧ ∀ k p, id ≠ 0 → s.findPlan id = some (k, p) →
      let group := p.trigger.isGroup
      (p.state ≠ .loaded → refused .wrongState)
      ∧ (p.state = .loaded → group = true → s.group.membership.isMember = false → refused .notMember)
      ∧ (p.state = .loaded → group = true → s.group.membership.isMember = true → s.groupBusy = true →
          refused .groupBusy)
      ∧ (p.state = .loaded → (group = true → s.group.membership.isMember = true ∧ s.groupBusy = false) →
          (∀ (e : Port) (holder : Byte), e ∈ p.edits.map (·.egress) → s.claims[e] = some holder →
            (∀ f : Port, f < e → f ∈ p.edits.map (·.egress) → s.claims[f] = none) →
            exec .planArm s = .next ((s.taken rest).replied m
              { status := .claimConflict, result := [natByte e.val, holder], restart := false }))
          ∧ ((∀ e ∈ p.edits.map (·.egress), s.claims[e] = none) →
            ∃ u : State, PlanArmed (s.taken rest) u k p
              ∧ (p.trigger ≠ .now → exec .planArm s = .next (u.replied m (Answer.ok [2])))
              ∧ (p.trigger = .now →
                let t := u.firePlan k none false
                exec .planArm s = .next (t.replied m (Answer.ok [3]))
                ∧ t.plans[k] = some
                    { p with
                      state := .applying, timer := none, fireTime := some s.timeBase
                      epochAtFire := none }
                ∧ ∀ e ∈ p.edits.map (·.egress), t.claims[e] = some p.id))))
  ∧ (s.groupBusy = true ↔ ∃ (j : SlotId) (q : Plan), s.plans[j] = some q ∧ q.trigger.isGroup = true
      ∧ (q.state = .armed ∨ q.state = .applying))
  ∧ (s.group.membership.isMember = true ↔ ∃ x, s.group.membership = .member x)
  ∧ ∀ g : Trigger, g.isGroup = true ↔ ∃ x, g = .group x

/-- The fire of an ARMED plan (R85, R86, R68): APPLYING with the time of the fire, the FIRED notice first if
asked for, and then each edit in list order handed over: the entry replaced whole, a guard that starts SUSPENDED,
and the selector's change, with the edit's target and policy, the plan's drain deadline (none when it is 0) and
the plan's id as its requester.  No other egress is touched; a plan in another state does not fire.  PLAN_FIRE is
refused for GROUP and for a plan that is not ARMED, and replies the state code (R92).  A trigger event fires every
plan ARMED with its trigger, one after the other in some order, and leaves none ARMED (R81, R82, R83).  Fired by is
OVERRIDE for a PLAN_FIRE of a MARK or SENSE plan (R96). -/
def Obligations.FireHandsOverEveryEdit : Prop :=
  (∀ (s : State) (k : SlotId) (p : Plan) (epoch : Option Half) (byRequest : Bool),
    s.plans[k] = some p → (p.state ≠ .armed → s.firePlan k epoch byRequest = s)
    ∧ (p.state = .armed →
      let t := s.firePlan k epoch byRequest
      let fired := { p with
        state := .applying, timer := none, fireTime := some s.timeBase, epochAtFire := epoch }
      let u := s.setPlan k (some fired)
      let notice : PlanNotice :=
        { event := .fired, id := p.id, slot := k, trigger := p.trigger
          firedBy := some (firedBy p.trigger byRequest), epoch := epoch, reason := none
          editCount := p.edits.length, clean := 0, forced := 0, deadline := 0, down := 0 }
      t = p.edits.foldl (fun v d => v.handEdit p.id p.drainDeadline d)
          (if p.fireNotice then u.notify (.plan notice) else u)
      ∧ t.plans[k] = some fired
      ∧ (∀ j : SlotId, j ≠ k → t.plans[j] = s.plans[j])
      ∧ ((p.edits.map (·.egress)).Nodup →
        ∀ d ∈ p.edits, t.egresses[d.egress].entry = d.entry
          ∧ t.guards[d.egress].map (fun g => g.state)
              = d.entry.guard.map (fun _ => GuardState.suspendedFired))
      ∧ (∀ e : Port, e ∉ p.edits.map (·.egress) →
          t.egresses[e] = s.egresses[e] ∧ t.guards[e] = s.guards[e])
      ∧ (p.fireNotice = true → s.link.mtx.isSome → s.notices.entries.length < 32 →
          t.notices.entries[s.notices.entries.length]? = some
            { number := s.notices.next, time := s.timeBase, body := .plan notice })
      ∧ t.claims = s.claims ∧ t.ports = s.ports ∧ t.group = s.group
      ∧ (s.NoticesOnly t fun _ => False) ∧ t.timeBase = s.timeBase ∧ t.maxframe = s.maxframe))
  ∧ (∀ (s : State) (id : Byte) (drain : Nat) (d : Edit),
      let t := s.setEgress d.egress { s.egresses[d.egress] with entry := d.entry }
      let ch : Change :=
        { target := d.entry.source, policy := d.entry.policy
          deadline := if drain = 0 then none else some drain, requester := .plan id, cut := .none }
      (d.entry.guard = none →
        s.handEdit id drain d = (t.setGuard d.egress none).takeChange d.egress ch)
      ∧ (d.entry.guard ≠ none →
        s.handEdit id drain d
          = ((t.setGuard d.egress (some
              { ident := s.guardSerial, state := .suspendedFired, last := none })).setSerial
              (s.guardSerial + 1)).takeChange d.egress ch))
  ∧ (∀ (s : State) (m : Message) (rest : List Message) (id : Byte) (k : SlotId) (p : Plan),
      s.CanTake m rest 0x32 → m.payload = [id] →
      (id = 0 → exec .planFire s = .next ((s.taken rest).replied m (Answer.refuse .badField)))
      ∧ (id ≠ 0 → s.findPlan id = none →
        exec .planFire s = .next ((s.taken rest).replied m (Answer.refuse .noPlan)))
      ∧ (id ≠ 0 → s.findPlan id = some (k, p) →
      (p.trigger.isGroup = true →
        exec .planFire s = .next ((s.taken rest).replied m (Answer.refuse .notAllowed)))
      ∧ (p.trigger.isGroup = false → p.state ≠ .armed →
        exec .planFire s = .next ((s.taken rest).replied m (Answer.refuse .wrongState)))
      ∧ (p.trigger.isGroup = false → p.state = .armed →
        exec .planFire s
          = .next (((s.taken rest).firePlan k none true).replied m (Answer.ok [3])))))
  ∧ (∀ (s : State) (g : Trigger),
      (∃ (l : List SlotId) (draws : Nat), l.Nodup
        ∧ (∀ k : SlotId, k ∈ l ↔ ∃ p, s.plans[k] = some p ∧ p.state = .armed ∧ p.trigger = g)
        ∧ (∀ k : SlotId, k ∈ s.waitingOn g ↔ k ∈ l)
        ∧ s.fireWaiting g = l.foldl (fun t k => t.firePlan k none false) (s.setDraws draws))
      ∧ ∀ (k : SlotId) (p : Plan), (s.fireWaiting g).plans[k] = some p → p.trigger = g → p.state ≠ .armed)
  ∧ ∀ (g : Trigger) (byRequest : Bool),
      firedBy g byRequest = .override ↔ byRequest = true ∧ ((∃ p, g = .mark p) ∨ ∃ n, g = .sense n)

/-- What a suspended guard resumes to (R67); a guard that is not suspended stays as it is. -/
def GuardResumes (s : State) (e : Port) (r : Guard) (f : GuardFields) : Prop :=
  let moves (m : GuardMove) : Prop := s.resumeMove e f r.state = m
  s.guardResumeParts e = s.guardParts e (s.resumeMove e f r.state)
  ∧ s.guardResume e = s.guardMoves e (s.resumeMove e f r.state)
  ∧ (∀ sel, r.state = .suspended sel .locked → moves (.to .locked))
  ∧ (∀ sel, r.state = .suspended sel .forced → moves (.to .forced))
  ∧ (r.state = .suspended .primary .none →
    (s.primaryWell e f = true → moves (.to .watching))
    ∧ (s.primaryWell e f = false → f.holdOff ≠ 0 → moves (.to (.holdoff (f.holdOff * 1000000))))
    ∧ (s.primaryWell e f = false → f.holdOff = 0 → s.standbyWell f = true →
        moves (.switch .standby .onStandby))
    ∧ (s.primaryWell e f = false → f.holdOff = 0 → s.standbyWell f = false → moves (.to .primaryDown)))
  ∧ (r.state = .suspended .standby .none → moves (s.evaluationMove e f))
  ∧ ((∀ sel o, r.state ≠ .suspended sel o) → moves .stay)

/-- A move of the group interface to membership or member state `m`, and its drive (R98).  A part that begins to
pull down a line that reads HIGH reads it LOW at once on sound wiring, which ends an episode (R97, R108);
whether the wiring is sound is a free value (log entry 19), and where it is not the fault timer starts unless an
episode is in progress. Any other move leaves the level, and a drive RELEASED stops the fault timer. -/
def GroupMoves (s : State) (m : Membership) : Prop :=
  let pulls := m.driveLow = true ∧ s.group.driveLow = false ∧ s.group.high = true
  let drawn := s.setDraws (s.draws + 1)
  (¬ pulls → s.groupTo m = s.setGroup { s.group with
      membership := m, faultTimer := if m.driveLow then s.group.faultTimer else none })
  ∧ (pulls → Config.grdySound s.draws = true → s.groupTo m = drawn.setGroup { s.group with
      membership := m, high := false, faultTimer := none, episode := false })
  ∧ (pulls → Config.grdySound s.draws = false → s.groupTo m = drawn.setGroup { s.group with
      membership := m, faultTimer := if s.group.episode then s.group.faultTimer else some 200 })
  ∧ (m.driveLow = false ↔ m = .nonMember ∨ (∃ q, m = .member (.released q))
      ∨ ∃ left, m = .member (.hold left))

/-- How the group interface is told, in state `w`, that the GROUP plan has expired or been cancelled (R106, R107): the
group plan record is removed, and LOW_WAIT and RELEASED go to LOW_IDLE, a move as GroupMoves has it, which gives the
level, the fault timer and the episode (R97, R108); LOW_IDLE, HOLD and a part that is no member stay.  Where a running
qualification was taken first, the part has fired on the line: the epoch is one higher, and it holds. -/
def GroupToldGone (w : State) (q : Bool) : Prop :=
  let told := w.groupToldGone q
  let gone := w.setGroup { w.group with plan := none }
  (w.group.membership = .member .lowWait → told = gone.groupTo (.member .lowIdle))
  ∧ (∀ left, w.group.membership = .member (.released left) → q = false ∨ left = none →
      told = gone.groupTo (.member .lowIdle)
      ∧ (w.group.high = false → told.group.high = false)
      ∧ (w.group.high = true → told.group.high = !Config.grdySound w.draws))
  ∧ (∀ left, w.group.membership = .member (.released (some left)) → q = true →
      told = w.setGroup { w.group with
        membership := .member (.hold 2000), faultTimer := none, epoch := w.group.epoch + 1, plan := none })
  ∧ (w.group.membership ≠ .member .lowWait → (∀ left, w.group.membership ≠ .member (.released left)) →
      told = gone)
  ∧ ∀ m : Membership, GroupMoves gone m

/-- PLAN_CANCEL (R91) and the two expiries (R90): CANCELLED with no notice, or EXPIRED with its reason and an
EXPIRED notice after the rest; and from ARMED, in order, the claims released, the suspended guards resumed
(their notices in any order that keeps each block's own, R153), stranded INJECT frames discarded, and the group
interface told (R106, R107).  A guard resumes from what it remembered (R67): LOCKED, FORCED, WATCHING or HOLDOFF
by the primary's grade, or the standby evaluation.  An egress that an edit would have put on INJECT and that is
not on it keeps no queued frame and no OPEN context.  A HOLD in progress runs on, and the epoch stays.  The
command's choice that a qualification was taken first at the group interface (log entry 13) has no effect
without a running one; with one, the part fires on the line first: the epoch one higher, and HOLD.  Without one a
member goes from LOW_WAIT or RELEASED to LOW_IDLE, a move as O45 has it: a line that reads HIGH and that the part
then pulls down reads LOW at once on sound wiring, which is the free value drawn in that state (R97; log entry 19). -/
def Obligations.CancelAndExpiryLetGoOfThePlan : Prop :=
  (∀ (s : State) (m : Message) (rest : List Message) (id : Byte) (k : SlotId) (p : Plan) (q : Bool),
      s.CanTake m rest 0x33 → m.payload = [id] →
      let t := (s.taken rest).setPlan k (some { p with state := .cancelled, timer := none })
      let refused (st : Status) : Prop :=
        exec (.planCancel q) s = .next ((s.taken rest).replied m (Answer.refuse st))
      (id = 0 → refused .badField)
      ∧ (id ≠ 0 → s.findPlan id = none → refused .noPlan)
      ∧ (id ≠ 0 → s.findPlan id = some (k, p) →
      (p.state = .loaded → exec (.planCancel q) s = .next (t.replied m (Answer.ok [])))
      ∧ (p.state = .armed → exec (.planCancel q) s = .next ((t.letGo p q).replied m (Answer.ok [])))
      ∧ (p.state = .applying → refused .tooLate)
      ∧ (p.state = .done ∨ p.state = .expired ∨ p.state = .cancelled → refused .wrongState)))
  ∧ (∀ (s : State) (k : SlotId) (p : Plan) (q : Bool), s.phase = .run → s.plans[k] = some p →
      p.state = .armed → p.timer.isSome →
      let expired (reason : ExpiryReason) (first : Bool) : State :=
        ((s.setPlan k (some { p with state := .expired, timer := none, reason := some reason })).letGo p
          first).notify (.plan
            { event := .expired, id := p.id, slot := k, trigger := p.trigger, firedBy := none
              epoch := none, reason := some reason, editCount := p.edits.length, clean := 0, forced := 0
              deadline := 0, down := 0 })
      (p.trigger.isGroup = false → exec (.armExpiry k) s = .next (expired .armTimeout false).arbitrate)
      ∧ (p.trigger.isGroup = true →
        exec (.groupWaitExpiry k q) s = .next (expired .groupTimeout q).arbitrate))
  ∧ ∀ (s : State) (p : Plan) (q : Bool),
      let t := s.letGo p q
      t.plans = s.plans ∧ t.ports = s.ports ∧ t.timeBase = s.timeBase
      ∧ (s.NoticesOnly t fun c => 20 ≤ c.val ∧ c.val < 36)
      ∧ (∀ e : Port, t.egresses[e].entry = s.egresses[e].entry
          ∧ t.claims[e] = if e ∈ p.edits.map (·.egress) then none else s.claims[e])
      ∧ (∀ e : Port, e ∉ p.edits.map (·.egress) →
          t.egresses[e] = s.egresses[e] ∧ t.guards[e] = s.guards[e]
          ∧ t.pool.views[e] = s.pool.views[e])
      ∧ (s.GuardsMatch → ∀ e ∈ p.edits.map (·.egress), t.guardSuspended e = false)
      ∧ (∀ e ∈ p.edits.map (·.egress),
          t.guards[e].map (fun g => g.state) = (s.guardResume e).guards[e].map fun g => g.state)
      ∧ (∀ (e : Port) (r : Guard) (f : GuardFields), s.guards[e] = some r →
          s.egresses[e].entry.guard = some f → GuardResumes s e r f)
      ∧ (∀ e : Port, s.guardSuspended e = true ↔
          ∃ r sel o, s.guards[e] = some r ∧ r.state = .suspended sel o)
      ∧ (∃ (l : List Port) (draws : Nat),
          (∀ e : Port, e ∈ l ↔ (∃ d ∈ p.edits, d.egress = e ∧ d.entry.source = .inject)
            ∧ s.egresses[e].onInject = false
            ∧ (s.pool.views[e].queue ≠ [] ∨ ∃ (k : ContextId) (c : Context), s.pool.contexts[k] = some c
                ∧ c.target = e))
          ∧ ((p.edits.map (·.egress)).Nodup → l.Nodup)
          ∧ s.dropStranded p = l.foldl State.injectDiscard (s.setDraws draws))
      ∧ (∃ u v w : State, (∀ e : Port, u.claims[e] = if e ∈ p.edits.map (·.egress) then none else s.claims[e])
          ∧ u = { s with claims := u.claims }
          ∧ u.Together ((allPorts.filter fun e =>
              decide (e ∈ p.edits.map (·.egress)) && s.guardSuspended e).flatMap s.guardResumeParts) v
          ∧ w = v.dropStranded p ∧ w.group = s.group
          ∧ t = (if p.trigger.isGroup then w.groupToldGone q else w) ∧ GroupToldGone w q)
      ∧ (∀ d ∈ p.edits, d.entry.source = .inject → t.egresses[d.egress].onInject = false →
          t.pool.views[d.egress].queue = []
          ∧ ∀ (k : ContextId) (c : Context), t.pool.contexts[k] = some c → c.target ≠ d.egress)
      ∧ (p.trigger.isGroup = false → t.group = s.group)
      ∧ (p.trigger.isGroup = true → t.group.plan = none
          ∧ (s.group.membership = .member .lowWait → t.group.membership = .member .lowIdle)
          ∧ (∀ left, s.group.membership = .member (.hold left) →
              t.group.membership = .member (.hold left) ∧ t.group.epoch = s.group.epoch)
          ∧ (∀ left, s.group.membership = .member (.released left) → q = false ∨ left = none →
              t.group.membership = .member .lowIdle ∧ t.group.epoch = s.group.epoch)
          ∧ (∀ left, s.group.membership = .member (.released (some left)) → q = true →
              t.group.membership = .member (.hold 2000) ∧ t.group.epoch = s.group.epoch + 1))

/-- PLAN_RELEASE frees the slot of a plan in LOADED, DONE, EXPIRED or CANCELLED and replies its number;
APPLYING and ARMED are refused WRONG_STATE (R95).  PLAN_READ reports one plan in 28 bytes and 8 for each edit
(R93), or the table in 40 bytes (R94), and changes nothing; its bytes are those of R181 in the codes of R176, a
timer at 0 whose expiry is still untaken reading as 1 ms (log entry 31). -/
def Obligations.PlanReleaseFreesAndPlanReadReports : Prop :=
  ∀ (s : State) (m : Message) (rest : List Message) (id : Byte), m.payload = [id] →
    (s.CanTake m rest 0x35 →
      (id = 0 → exec .planRelease s = .next ((s.taken rest).replied m (Answer.refuse .badField)))
      ∧ (id ≠ 0 → s.findPlan id = none →
          exec .planRelease s = .next ((s.taken rest).replied m (Answer.refuse .noPlan)))
      ∧ ∀ k p, id ≠ 0 → s.findPlan id = some (k, p) →
        (p.state = .armed ∨ p.state = .applying →
          exec .planRelease s = .next ((s.taken rest).replied m (Answer.refuse .wrongState)))
        ∧ (p.state = .loaded ∨ p.state = .done ∨ p.state = .expired ∨ p.state = .cancelled →
          exec .planRelease s
            = .next (((s.taken rest).setPlan k none).replied m (Answer.ok [natByte k.val]))))
    ∧ (s.CanTake m rest 0x34 →
      (id = 0 → exec .planRead s = .next ((s.taken rest).replied m (Answer.ok s.planSummary)))
      ∧ (id ≠ 0 → s.findPlan id = none →
          exec .planRead s = .next ((s.taken rest).replied m (Answer.refuse .noPlan)))
      ∧ ∀ k p, id ≠ 0 → s.findPlan id = some (k, p) →
        exec .planRead s = .next ((s.taken rest).replied m (Answer.ok (p.encode k))))
    ∧ s.planSummary.length = 40
    ∧ s.planSummary
      = (s.plans.toList.flatMap fun
          | none => [0, 0, 0xFF]
          | some p => [p.state.code, p.id, p.trigger.code])
        ++ (s.claims.toList.map fun c => c.getD 0)
    ∧ (∀ (k : SlotId) (p : Plan), (p.encode k).length = 28 + 8 * p.edits.length
      ∧ p.encode k
        = [natByte k.val, p.id, p.state.code, p.trigger.code, p.trigger.index]
          ++ natHalf (if p.trigger.isGroup then p.groupWait else p.armExpiry)
          ++ (match p.timer with
              | none => [0, 0, 0]
              | some left => 1 :: natHalf (max 1 ((left + 99999) / 100000)))
          ++ natHalf p.drainDeadline ++ [if p.fireNotice then 1 else 0]
          ++ presentWord p.fireTime ++ presentWord p.doneTime
          ++ [match p.reason with
              | none => 0xFF
              | some x => x.code]
          ++ presentHalf p.epochAtFire ++ [natByte p.edits.length]
          ++ p.edits.flatMap fun d =>
              natByte d.egress.val :: d.entry.encode
                ++ [match d.outcome with
                  | none => 0xFF
                  | some o => o.outcome.code + (if o.sourceDown then 8 else 0)])
    ∧ (∀ h : Half, presentHalf (some h) = 1 :: halfBytes h) ∧ presentHalf none = [0, 0, 0]
    ∧ (∀ w : Word32, presentWord (some w) = 1 :: wordBytes w) ∧ presentWord none = [0, 0, 0, 0, 0]
    ∧ [PlanState.loaded, .armed, .applying, .done, .expired, .cancelled].map PlanState.code
        = [1, 2, 3, 4, 5, 6]
    ∧ [ExpiryReason.armTimeout, .groupTimeout].map ExpiryReason.code = [0, 1]

/-- EDIT_SETTLE (R88): the edit's outcome is recorded, its claim released and its guard initialised (R68,
R55), a hold-off of 0 expiring at once (log entry 12); and after the last edit the plan is DONE with its
time, a DONE notice with the counts is queued, and a GROUP plan's record is removed (R89).  An event whose
plan is not APPLYING changes no plan. -/
def Obligations.EditSettleReleasesAndCompletes : Prop :=
  ∀ (s : State) (e : Port) (ev : PlanSettle), s.phase = .run → s.egresses[e].planSettle = some ev →
    let t := s.setEgress e { s.egresses[e] with planSettle := none }
    ((∀ k p, s.findPlan ev.id = some (k, p) → p.state ≠ .applying) →
      exec (.editSettle e) s = .next t.arbitrate)
    ∧ ∀ k p, s.findPlan ev.id = some (k, p) → p.state = .applying →
      let q : Plan :=
        { p with
          edits := p.edits.map fun d =>
            if d.egress = e then
              { d with
                outcome := some (d.outcome.getD { outcome := ev.outcome, sourceDown := ev.sourceDown }) }
            else d }
      let u := (((t.setPlan k (some q)).setClaim e none).guardInit e).holdOffIfZero e
      u.claims[e] = none
      ∧ (∀ r f, s.guards[e] = some r → s.egresses[e].entry.guard = some f →
          (s.primaryWell e f = true →
            u.guards[e] = some { ident := r.ident, state := .watching, last := none })
          ∧ (s.primaryWell e f = false → f.holdOff ≠ 0 →
            u.guards[e] = some
              { ident := r.ident, state := .holdoff (f.holdOff * 1000000), last := none })
          ∧ (s.primaryWell e f = false → f.holdOff = 0 →
            let v := ((t.setPlan k (some q)).setClaim e none).setGuard e
              (some { ident := r.ident, state := .holdoff 0, last := none })
            u = if s.standbyWell f then v.guardSwitch e .standby true .onStandby
              else v.guardTo e .primaryDown))
      ∧ (∀ o, countOutcomes q.edits o
          = q.edits.countP fun d => d.outcome.any fun x => decide (x.outcome = o))
      ∧ countDown q.edits = (q.edits.countP fun d => d.outcome.any fun x => x.sourceDown)
      ∧ ((∃ d ∈ q.edits, d.outcome = none) → exec (.editSettle e) s = .next u.arbitrate)
      ∧ ((∀ d ∈ q.edits, d.outcome ≠ none) →
        let v := u.setPlan k (some { q with state := .done, doneTime := some s.timeBase })
        let w := if p.trigger.isGroup then v.setGroup { v.group with plan := none } else v
        exec (.editSettle e) s = .next (w.notify (.plan
          { event := .done, id := p.id, slot := k, trigger := p.trigger, firedBy := none
            epoch := p.epochAtFire, reason := none, editCount := q.edits.length
            clean := countOutcomes q.edits .clean, forced := countOutcomes q.edits .forced
            deadline := countOutcomes q.edits .deadline, down := countDown q.edits })).arbitrate)

/-! ### The group interface -/

/-- GROUP_CONFIG (R100): a membership already in force changes nothing; leaving MEMBER while a GROUP plan is
ARMED or APPLYING is refused WRONG_STATE; else the membership, its drive (R98) and LOW_IDLE for a MEMBER, a
move as O45 has it (R97, R108).
GROUP_STATUS reports 11 bytes, in the codes of R176, and changes nothing (R110); the ready flag of an ARMED group
plan is that of the present line states, in HOLD too (log entry 32). -/
def Obligations.GroupConfigSetsMembership : Prop :=
  ∀ (s : State) (m : Message) (rest : List Message) (b : Byte),
    (s.CanTake m rest 0x40 → m.payload = [b] →
      (3 ≤ b.toNat → exec .groupConfig s = .next ((s.taken rest).replied m (Answer.refuse .badField)))
      ∧ (b.toNat < 3 → b = s.group.membership.code →
        exec .groupConfig s
          = .next ((s.taken rest).replied m (Answer.ok [b, s.group.membership.memberCode])))
      ∧ (b.toNat < 3 → b ≠ s.group.membership.code →
        (s.group.membership.isMember = true → s.groupBusy = true →
          exec .groupConfig s = .next ((s.taken rest).replied m (Answer.refuse .wrongState)))
        ∧ (s.group.membership.isMember = false ∨ s.groupBusy = false →
          exec .groupConfig s
            = .next (((s.taken rest).groupTo
                (if b = 0 then .unset else if b = 1 then .member .lowIdle else .nonMember)).replied m
                (Answer.ok [b, if b = 1 then 0 else 0xFF])))))
    ∧ (s.CanTake m rest 0x41 → m.payload = [] →
      exec .groupStatus s = .next ((s.taken rest).replied m (Answer.ok s.groupStatusResult)))
    ∧ (s.CanTake m rest 0x41 → m.payload ≠ [] →
      exec .groupStatus s = .next ((s.taken rest).replied m (Answer.refuse .badLength)))
    ∧ s.groupStatusResult.length = 11
    ∧ s.groupStatusResult
      = [s.group.membership.code, s.group.membership.memberCode, if s.group.driveLow then 0 else 1,
          if s.group.high then 1 else 0] ++ halfBytes s.group.epoch
        ++ (match s.group.plan with
            | none => [0, 0xFF, 0xFF]
            | some r => [r.id, if r.applying then 3 else 2,
                if r.applying then 0xFF else if s.groupReady r then 1 else 0])
        ++ [if s.group.qualifying then 1 else 0, if s.group.episode then 1 else 0]
    ∧ (s.group.qualifying = true ↔ ∃ left, s.group.membership = .member (.released (some left)))
    ∧ (∀ r : GroupPlan, s.groupReady r = true ↔ r.ready = .none
        ∨ ∀ p ∈ r.sources, s.ports[p].line = .quiet ∨ s.ports[p].line = .carry)
    ∧ (∀ m, [Membership.unset, .member m, .nonMember].map Membership.code = [0, 1, 2])
    ∧ (∀ q left, [Membership.member .lowIdle, .member .lowWait, .member (.released q),
          .member (.hold left), .unset, .nonMember].map Membership.memberCode
        = [0, 1, 2, 3, 0xFF, 0xFF])
    ∧ (s.group.driveLow = false ↔ s.group.membership = .nonMember
        ∨ (∃ q, s.group.membership = .member (.released q))
        ∨ ∃ left, s.group.membership = .member (.hold left))

/-- GRDY_LEVEL_CHANGE to another level (R97, R104, R108): in RELEASED a HIGH level starts the 2 us qualification
and a LOW one stops it; with the drive LOW and no episode a HIGH level starts the 2 us fault timer, and with the
drive RELEASED or in an episode it starts none; a LOW level stops it and ends an episode.  FAULT_TIMER_EXPIRY
begins an episode with one occurrence of GRDY_FAULT, id 39.  Nothing but the group interface, that condition and
its notice is touched.  A GRDY_LEVEL_CHANGE to the level already there changes nothing, by the model's reading
(log entry 26).  A part that begins to pull down a line that reads HIGH reads it LOW at once on sound wiring
(R97; log entry 19). -/
def Obligations.GrdyLevelQualifiesOrFaults : Prop :=
  ∀ (s : State) (high : Bool), s.phase = .run →
    (s.group.high = high → exec (.grdyLevelChange high) s = .next s.arbitrate)
    ∧ (s.group.high ≠ high → ∃ g : Group,
        exec (.grdyLevelChange high) s = .next (s.setGroup g).arbitrate
        ∧ g.high = high ∧ g.plan = s.group.plan ∧ g.epoch = s.group.epoch
        ∧ (∀ q, s.group.membership = .member (.released q) →
            g.membership = .member (.released (if high then some 200 else none)))
        ∧ ((∀ q, s.group.membership ≠ .member (.released q)) → g.membership = s.group.membership)
        ∧ (high = true → s.group.driveLow = true → s.group.episode = false → g.faultTimer = some 200)
        ∧ (high = true → s.group.driveLow = false ∨ s.group.episode = true → g.faultTimer = none)
        ∧ (high = false → g.faultTimer = none ∧ g.episode = false)
        ∧ (high = true → g.episode = s.group.episode))
    ∧ (s.group.faultTimer.isSome →
        exec .faultTimerExpiry s
          = .next ((s.setGroup { s.group with faultTimer := none, episode := true }).occur
              39).arbitrate)
    ∧ ∀ m : Membership, GroupMoves s m

/-- QUALIFICATION_COMPLETE is the group fire (R104): the epoch goes up by one, wrapping, the group plan record
becomes APPLYING, the member holds for 20 us, and the ARMED GROUP plan fires with the new epoch (R79).
HOLD_EXPIRY (R105) leaves HOLD for LOW_IDLE, or for RELEASED or LOW_WAIT by the ready condition when a plan
was armed in the meantime.  A line event of a source of the group plan (R103) takes LOW_WAIT to RELEASED when the
condition has come to be met, and RELEASED to LOW_WAIT when it no longer is, moves as O45 has
them (R97, R108); nothing else comes of it, and in LOW_IDLE and HOLD nothing at all. -/
def Obligations.GroupFireAdvancesTheEpochAndHolds : Prop :=
  (∀ s : State, s.phase = .run → s.group.qualifying = true →
    let t := s.setGroup
      { s.group with
        membership := .member (.hold 2000), faultTimer := none, epoch := s.group.epoch + 1
        plan := s.group.plan.map fun r => { r with applying := true } }
    (∀ k, s.armedGroupSlot = some k →
      exec .qualificationComplete s
        = .next (t.firePlan k (some (s.group.epoch + 1)) false).arbitrate)
    ∧ (s.armedGroupSlot = none → exec .qualificationComplete s = .next t.arbitrate)
    ∧ ∀ k, s.armedGroupSlot = some k →
        ∃ p, s.plans[k] = some p ∧ p.state = .armed ∧ p.trigger.isGroup = true)
  ∧ (∀ s : State, s.armedGroupSlot = none ↔
      ∀ (k : SlotId) (p : Plan), s.plans[k] = some p → p.state = .armed → p.trigger.isGroup = false)
  ∧ (∀ (s : State) (left : Nat), s.phase = .run → s.group.membership = .member (.hold left) →
      let ends (m : MemberState) : Prop := exec .holdExpiry s = .next (s.groupTo (.member m)).arbitrate
      (s.group.plan = none → ends .lowIdle)
        ∧ ∀ r, s.group.plan = some r →
          (r.applying = true → ends .lowIdle)
          ∧ (r.applying = false → s.groupReady r = true →
              ends (.released (if s.group.high then some 200 else none)))
          ∧ (r.applying = false → s.groupReady r = false → ends .lowWait))
  ∧ ∀ s : State,
      let wait := s.group.membership = .member .lowWait
      let released := ∃ q, s.group.membership = .member (.released q)
      ((s.group.plan = none ∨ (¬ wait ∧ ¬ released)) → s.groupLineEvent = s)
      ∧ ∀ r, s.group.plan = some r →
        (wait → s.groupReady r = false → s.groupLineEvent = s)
        ∧ (released → s.groupReady r = true → s.groupLineEvent = s)
        ∧ (wait → s.groupReady r = true →
          s.groupLineEvent
            = s.groupTo (.member (.released (if s.group.high then some 200 else none))))
        ∧ (released → s.groupReady r = false → s.groupLineEvent = s.groupTo (.member .lowWait))

/-! ### PATTERN and INJECT -/

/-- PATTERN_CONFIG replaces the three settings, enabling from off restarts the numbering at 0, and the reply
shows in 11 bytes the settings, the phase, the frame sequence when it is FRAME or GAP, and the next one (R117,
R118); at a frame start a generator that is on begins a frame with the settings in force and offers OPEN, and
one that is off is IDLE (R115), unless an egress holds its character back or is to join it first (R38; log entries 24
and 33), and it may be commanded though the FILL of this character time has been offered (the model's choice, log
entry 35); byte i of a frame of sequence s is as R114 says.  In a new character time it
offers to every selector on PATTERN (R119) the next DATA of its frame, the SHUT after the last, or a FILL of its
gap, and a frame start is due when the gap is over and in IDLE once it is on (R114, R115). -/
def Obligations.PatternConfigAndFrames : Prop :=
  (∀ (s : State) (m : Message) (rest : List Message) (e lh ll gh gl : Byte), s.CanTake m rest 0x50 →
    m.payload = [e, lh, ll, gh, gl] →
    let length := (readHalf lh ll).toNat
    let gap := (readHalf gh gl).toNat
    (e.toNat < 2 → 4 ≤ length → length ≤ 1024 → 8 ≤ gap → gap ≤ 4096 →
      let g : Pattern :=
        { s.pattern with
          enable := decide (e = 1), length := length, gap := gap
          next := if e = 1 ∧ s.pattern.enable = false then 0 else s.pattern.next }
      exec .patternConfig s = .next (((s.taken rest).setPattern g).replied m (Answer.ok g.report)))
    ∧ (2 ≤ e.toNat ∨ length < 4 ∨ 1024 < length ∨ gap < 8 ∨ 4096 < gap →
      exec .patternConfig s = .next ((s.taken rest).replied m (Answer.refuse .badField))))
  ∧ (∀ s : State, s.phase = .run → s.pattern.atFrameStart = true → s.sourceOpen .pattern = true →
      (s.pattern.enable = true →
        exec .patternFrameStart s
          = .next ((s.setPattern
              { s.pattern with
                phase := .frame s.pattern.next s.pattern.length s.pattern.gap 0
                next := s.pattern.next + 1, startDue := false }).offer .pattern .opn).arbitrate)
      ∧ (s.pattern.enable = false →
        exec .patternFrameStart s
          = .next ((s.setPattern { s.pattern with phase := .idle, startDue := false }).offer .pattern
              .fill).arbitrate))
  ∧ (∀ s : State, s.phase = .run → s.sourceOpen .pattern = false → exec .patternFrameStart s = .next s)
  ∧ (∀ (g : Pattern) (seq : Half) (length gap pos : Nat),
      (g.phase = .idle → g.enable = false → g.newTime = (g, some .fill))
      ∧ (g.phase = .idle → g.enable = true → g.newTime = ({ g with startDue := true }, none))
      ∧ (g.phase = .frame seq length gap pos →
        (pos < length → g.newTime
          = ({ g with phase := .frame seq length gap (pos + 1) }, some (.data (patternByte seq pos))))
        ∧ (pos = length → g.newTime = ({ g with phase := .frame seq length gap (pos + 1) }, some .shut))
        ∧ (length < pos → g.newTime = ({ g with phase := .gap seq length gap 1 }, some .fill)))
      ∧ (g.phase = .gap seq length gap pos →
        (pos < gap → g.newTime = ({ g with phase := .gap seq length gap (pos + 1) }, some .fill))
        ∧ (gap ≤ pos → g.newTime = ({ g with startDue := true }, none))))
  ∧ (∀ s : State,
      let g := s.pattern.newTime.1
      (s.pattern.newTime.2 = none → s.patternNewTime = s.setPattern g)
      ∧ ∀ c, s.pattern.newTime.2 = some c → s.patternNewTime = (s.setPattern g).offer .pattern c
        ∧ ∀ e : Port, s.patternNewTime.egresses[e] = s.egresses[e].receive .pattern c)
  ∧ (∀ g : Pattern, g.atFrameStart = true ↔ g.startDue = true ∨ (g.phase = .idle ∧ g.enable = true)
      ∨ ∃ seq length gap, g.phase = .gap seq length gap gap)
  ∧ (∀ g : Pattern, g.report.length = 11
      ∧ g.report = [if g.enable then 1 else 0] ++ natHalf g.length ++ natHalf g.gap
        ++ (match g.phase with
            | .idle => [0, 0, 0, 0]
            | .frame seq _ _ _ => 1 :: 1 :: halfBytes seq
            | .gap seq _ _ _ => 2 :: 1 :: halfBytes seq)
        ++ halfBytes g.next)
  ∧ ∀ (s : Half) (i : Nat),
      (patternByte s 0).toNat = s.toNat / 256 ∧ (patternByte s 1).toNat = s.toNat % 256
      ∧ (2 ≤ i → (patternByte s i).toNat = (s.toNat + 7 * i) % 256)

/-- INJECT_START (R128): the checks in their order; a complete frame joins its target's queue, and an incomplete
one opens the lower-numbered FREE context with its 500 ms timer.  Space for the whole frame is taken at once
(R124), and the frame id is the next one, which then advances by one, wrapping, and passes over the ids that
frames QUEUED or SENDING and OPEN contexts hold, to the first that is free (R125).  An egress is eligible on
INJECT with no change in flight but one to INJECT, or claimed by a plan whose edit for it has source INJECT
(R127). -/
def Obligations.InjectStartReservesAndQueues : Prop :=
  (∀ (s : State) (m : Message) (rest : List Message) (t lh ll n : Byte) (fragment : List Byte),
    s.CanTake m rest 0x60 → m.payload = t :: lh :: ll :: n :: fragment →
    let total := (readHalf lh ll).toNat
    let refused (st : Status) : Prop :=
      exec .injectStart s = .next ((s.taken rest).replied m (Answer.refuse st))
    (fragment.length = 0 ∨ 240 < fragment.length → refused .badLength)
    ∧ (1 ≤ fragment.length → fragment.length ≤ 240 →
      (16 ≤ t.toNat ∨ 2 ≤ n.toNat ∨ total = 0 ∨ 1024 < total ∨ total < fragment.length →
        refused .badField)
      ∧ ∀ e : Port, t = natByte e.val → n.toNat < 2 → total ≤ 1024 → fragment.length ≤ total →
        let blocks := (total + 63) / 64
        let room := s.pool.freeDescriptors ≠ 0 ∧ blocks ≤ s.pool.freeBlocks
        let p : Pool :=
          { s.pool with
            freeDescriptors := s.pool.freeDescriptors - 1
            freeBlocks := s.pool.freeBlocks - blocks }
        let done (q : Pool) (k : Byte) : Prop :=
          exec .injectStart s = .next (((s.taken rest).setPool
            { q with nextId := q.idAfter s.pool.nextId }).replied m
              (Answer.ok (halfBytes s.pool.nextId ++ [k])))
        (s.eligible e = false → refused .notInject)
        ∧ (s.eligible e = true → ¬ room → refused .noSpace)
        ∧ (s.eligible e = true → room → fragment.length = total →
          done (p.setView e { s.pool.views[e] with
            queue := s.pool.views[e].queue
              ++ [{ id := s.pool.nextId, notify := decide (n = 1), bytes := fragment }] }) 0xFF)
        ∧ (s.eligible e = true → room → fragment.length < total →
          (s.pool.contexts[(0 : ContextId)].isSome → s.pool.contexts[(1 : ContextId)].isSome →
            refused .noAssembly)
          ∧ ∀ k : ContextId, s.pool.contexts[k] = none →
            (k = 1 → s.pool.contexts[(0 : ContextId)].isSome) →
            done (p.setContext k (some
              { target := e, id := s.pool.nextId, total := total, notify := decide (n = 1)
                bytes := fragment, lastFragment := s.timeBase, timer := 50000000 }))
              (natByte k.val))))
  ∧ (∀ (p : Pool) (id : Half),
      (id + 1 ∉ p.liveIds → p.idAfter id = id + 1)
      ∧ (p.liveIds.length ≤ 32 → ∃ n : Nat, n ≤ 32 ∧ p.idAfter id = id + 1 + BitVec.ofNat 16 n
          ∧ p.idAfter id ∉ p.liveIds ∧ ∀ i : Nat, i < n → id + 1 + BitVec.ofNat 16 i ∈ p.liveIds)
      ∧ (∀ x : Half, x ∈ p.liveIds ↔ (∃ e : Port, (∃ f ∈ p.views[e].queue, f.id = x)
            ∨ ∃ f, p.views[e].sending = some f ∧ f.frame.id = x)
          ∨ ∃ (k : ContextId) (c : Context), p.contexts[k] = some c ∧ c.id = x))
  ∧ ∀ (s : State) (e : Port),
      (s.eligible e = true ↔ s.egresses[e].onInject = true
        ∨ ∃ id k p, s.claims[e] = some id ∧ s.findPlan id = some (k, p)
          ∧ ∃ d ∈ p.edits, d.egress = e ∧ d.entry.source = .inject)
      ∧ (s.egresses[e].onInject = true ↔ s.egresses[e].current = .inject
        ∧ ∀ ch, s.egresses[e].change = some ch → ch.target = .inject)
      ∧ (∀ id k p, s.findPlan id = some (k, p) ↔ s.plans[k] = some p ∧ p.id = id
        ∧ ∀ (j : SlotId) (q : Plan), j < k → s.plans[j] = some q → q.id ≠ id)
      ∧ ∀ id, s.findPlan id = none ↔ ∀ (k : SlotId) (q : Plan), s.plans[k] = some q → q.id ≠ id

/-- INJECT_CONT (R129, R130): a fragment at the wrong offset or too long is refused with the count received;
else it is stored, and a frame then complete joins the queue of its target.  INJECT_ABORT and
ASSEMBLY_TIMEOUT free the context with its descriptor and blocks (R131, R132).  POOL_STATUS reports 106 bytes
and changes nothing (R138): the free stock and the next frame id, five bytes of each egress and eleven of each
context (R182); the milliseconds since the last fragment come from the time base and stop at 499 (log entry
22). -/
def Obligations.InjectContStoresAndAssembliesEnd : Prop :=
  ∀ (s : State) (m : Message) (rest : List Message),
    (∀ (k oh ol : Byte) (fragment : List Byte), s.CanTake m rest 0x61 →
      m.payload = k :: oh :: ol :: fragment → 1 ≤ fragment.length → fragment.length ≤ 240 →
      (2 ≤ k.toNat → exec .injectCont s = .next ((s.taken rest).replied m (Answer.refuse .badField)))
      ∧ ∀ ctx : ContextId, k = natByte ctx.val →
        (s.pool.contexts[ctx] = none →
          exec .injectCont s = .next ((s.taken rest).replied m (Answer.refuse .wrongState)))
        ∧ ∀ c, s.pool.contexts[ctx] = some c →
          ((readHalf oh ol).toNat ≠ c.bytes.length ∨ c.total < c.bytes.length + fragment.length →
            exec .injectCont s = .next ((s.taken rest).replied m
              { status := .fragmentOrder, result := natHalf c.bytes.length, restart := false }))
          ∧ ((readHalf oh ol).toNat = c.bytes.length → c.bytes.length + fragment.length < c.total →
            exec .injectCont s
              = .next (((s.taken rest).setPool (s.pool.setContext ctx (some
                  { c with
                    bytes := c.bytes ++ fragment, lastFragment := s.timeBase
                    timer := 50000000 }))).replied m
                  (Answer.ok (halfBytes c.id ++ natHalf (c.bytes.length + fragment.length) ++ [0]))))
          ∧ ((readHalf oh ol).toNat = c.bytes.length → c.bytes.length + fragment.length = c.total →
            exec .injectCont s
              = .next (((s.taken rest).setPool ((s.pool.setContext ctx none).setView c.target
                  { s.pool.views[c.target] with
                    queue := s.pool.views[c.target].queue
                      ++ [{ id := c.id, notify := c.notify, bytes := c.bytes ++ fragment }] })).replied m
                  (Answer.ok (halfBytes c.id ++ natHalf c.total ++ [1])))))
    ∧ (∀ (k : Byte), s.CanTake m rest 0x62 → m.payload = [k] →
      (2 ≤ k.toNat → exec .injectAbort s = .next ((s.taken rest).replied m (Answer.refuse .badField)))
      ∧ ∀ ctx : ContextId, k = natByte ctx.val →
        (s.pool.contexts[ctx] = none →
          exec .injectAbort s = .next ((s.taken rest).replied m (Answer.refuse .wrongState)))
        ∧ ∀ c, s.pool.contexts[ctx] = some c →
          exec .injectAbort s
            = .next (((s.taken rest).setPool
                { s.pool.setContext ctx none with
                  freeDescriptors := s.pool.freeDescriptors + 1
                  freeBlocks := s.pool.freeBlocks + (c.total + 63) / 64 }).replied m
                (Answer.ok (halfBytes c.id ++ natHalf c.bytes.length))))
    ∧ (∀ (ctx : ContextId) (c : Context), s.phase = .run → s.pool.contexts[ctx] = some c →
      exec (.assemblyTimeout ctx) s
        = .next ((s.setPool
            { s.pool.setContext ctx none with
              freeDescriptors := s.pool.freeDescriptors + 1
              freeBlocks := s.pool.freeBlocks + (c.total + 63) / 64 }).notify
            (.assemblyTimeout c.target c.id c.bytes.length)).arbitrate)
    ∧ (s.CanTake m rest 0x63 → m.payload = [] →
      exec .poolStatus s = .next ((s.taken rest).replied m (Answer.ok s.poolStatusResult)))
    ∧ (s.CanTake m rest 0x63 → m.payload ≠ [] →
      exec .poolStatus s = .next ((s.taken rest).replied m (Answer.refuse .badLength)))
    ∧ s.poolStatusResult.length = 106
    ∧ s.poolStatusResult
      = [natByte s.pool.freeBlocks, natByte s.pool.freeDescriptors] ++ halfBytes s.pool.nextId
        ++ (allPorts.flatMap fun e =>
            [if s.eligible e then 1 else 0, natByte s.pool.views[e].queue.length]
              ++ match s.pool.views[e].sending with
                | none => [0, 0, 0]
                | some f => 1 :: halfBytes f.frame.id)
        ++ (s.pool.contexts.toList.flatMap fun
            | none => [0, 0xFF, 0, 0, 0, 0, 0, 0, 0, 0, 0]
            | some c =>
              [1, natByte c.target.val] ++ halfBytes c.id ++ natHalf c.total ++ natHalf c.bytes.length
                ++ [natByte ((c.total + 63) / 64)]
                ++ natHalf (min 499 ((s.timeBase - c.lastFragment).toNat / 1000)))

/-- What the INJECT view of an egress offers as a character time passes (R134): between frames FILL, counted up
to 8, unless a frame start is due; of a frame being sent the next DATA, which counts as sent unless a drain holds
it back (log entry 24), and after the last the SHUT, which is due, and which a draining egress is offered. -/
def ViewNewTime (s : State) (e : Port) : Prop :=
  let v := s.pool.views[e]
  let g := s.egresses[e]
  let offers (c : Character) (w : View) : State :=
    (s.setPool (s.pool.setView e w)).setEgress e (g.receive .inject c)
  (s.frameMayStart e = true ↔ g.state = .steady ∧ g.current = .inject ∧ v.sending = none ∧ v.gap = 8
    ∧ v.queue ≠ [])
  ∧ (v.sending = none →
    (s.frameMayStart e = true →
      s.viewNewTime e = s.setPool (s.pool.setView e { v with startDue := true }))
    ∧ (s.frameMayStart e = false →
      s.viewNewTime e = offers .fill { v with gap := min 8 (v.gap + 1), startDue := false }))
  ∧ ∀ f, v.sending = some f →
    (∀ b, f.frame.bytes[f.sent]? = some b →
      ((g.receive .inject (.data b)).held = none →
        s.viewNewTime e = offers (.data b) { v with sending := some { f with sent := f.sent + 1 } })
      ∧ ((g.receive .inject (.data b)).held ≠ none → s.viewNewTime e = offers (.data b) v))
    ∧ (f.frame.bytes.length ≤ f.sent →
      let due : View := { v with sending := some { f with shutDue := true } }
      (g.state = .draining → s.viewNewTime e = offers .shut due)
      ∧ (g.state ≠ .draining → s.viewNewTime e = s.setPool (s.pool.setView e due)))

/-- INJECT_FRAME_START (R134): the head frame is SENDING and OPEN is sent, even where the view has offered the FILL of
this character time (the model's choice, log entry 35); then its DATA, one in each character
time, and its SHUT.  INJECT_FRAME_SENT (R135): SHUT is sent, the frame's space is free, INJECT_SENT is queued if
asked for, and in a drain the egress leaves the frame (R37, R44), the notices of the two coming in either order
(R153).  The discard of R136 empties the queue of one egress and frees the contexts that target it, with one
INJECT_DROPPED notice when something was removed; the cut of R137 frees the frame with the number of bytes
sent. -/
def Obligations.InjectedFramesStartEndAndAreDiscarded : Prop :=
  ∀ (s : State) (e : Port),
    let v := s.pool.views[e]
    let g := s.egresses[e]
    let freed (f : Frame) : Pool :=
      { s.pool.setView e { v with sending := none, gap := 0 } with
        freeDescriptors := s.pool.freeDescriptors + 1
        freeBlocks := s.pool.freeBlocks + (f.bytes.length + 63) / 64 }
    let report (f : Frame) (t : State) : State :=
      if f.notify then t.notify (.injectSent e f.id f.bytes.length) else t
    (∀ f rest, s.phase = .run → g.state = .steady → g.current = .inject → v.sending = none → v.gap = 8 →
      v.queue = f :: rest →
      exec (.injectFrameStart e) s
        = .next ((s.setPool (s.pool.setView e
            { queue := rest, sending := some { frame := f, sent := 0, shutDue := false }, gap := 0
              startDue := false })).setEgress e { g with line := some .opn, inside := true }).arbitrate)
    ∧ (∀ f, s.phase = .run → g.current = .inject → v.sending = some f → f.shutDue = true →
      let shut := { g with line := some .shut, inside := false }
      (g.state = .steady → g.change = none →
        exec (.injectFrameSent e) s
          = .next (report f.frame ((s.setEgress e shut).setPool (freed f.frame))).arbitrate)
      ∧ ∀ ch, g.state = .draining → g.change = some ch → ∃ t : State,
        exec (.injectFrameSent e) s = .next t.arbitrate
        ∧ (s.setEgress e { shut with held := none }).Together
            [[(State.injectSent · e)], [(State.leaveFrame · e ch)]] t)
    ∧ (∀ f, v.sending = some f → s.injectSent e = report f.frame (s.setPool (freed f.frame)))
    ∧ ViewNewTime s e
    ∧ (let t := s.injectDiscard e
      t.pool.views[e] = { v with queue := [] }
      ∧ (∀ f : Port, f ≠ e → t.pool.views[f] = s.pool.views[f])
      ∧ (∀ k : ContextId, t.pool.contexts[k] = s.pool.contexts[k].filter fun c => decide (c.target ≠ e))
      ∧ t.pool.nextId = s.pool.nextId
      ∧ t =
          (let gone := s.pool.contexts.toList.countP fun c => c.any fun x => decide (x.target = e)
           if v.queue.length + gone = 0 then s.setPool t.pool
           else (s.setPool t.pool).notify (.targetChanged e v.queue.length gone)))
    ∧ ∀ f, v.sending = some f →
      s.injectCut e
        = (s.setPool (freed f.frame)).notify
            (.frameCut e f.frame.id f.frame.bytes.length f.sent)

/-! ### Conditions, sense inputs and notices -/

/-- One occurrence of a condition (R140, R141): its latch set, its count one higher and never above 255, and
a CONDITION notice offered exactly at a clear-to-set transition while it is subscribed without a pending
mark; the mark is made if the queue takes it, and goes as the notice starts to be sent, at once where MTX is idle and
nothing else waits (R148, R166).  Of another condition no latch, count or subscription changes, and of the rest of
the part only what the arbiter sends. -/
def Obligations.OccurrenceLatchesCountsAndNotifies : Prop :=
  ∀ (s : State) (c : CondId),
    let k := s.conds[c]
    let t := s.occur c
    let set : Condition := { k with latch := true, count := satInc k.count }
    let marked := s.setCond c { set with pending := decide (s.notices.entries.length < 32) }
    t.conds[c].latch = true
    ∧ (k.count.toNat < 255 → t.conds[c].count.toNat = k.count.toNat + 1)
    ∧ (k.count.toNat = 255 → t.conds[c].count.toNat = 255)
    ∧ t.conds[c].subscribed = k.subscribed
    ∧ s.NoticesOnly t (fun d => d = c)
    ∧ (k.latch = false ∧ k.subscribed = true ∧ k.pending = false →
        t = marked.notify (.condition c)
        ∧ (s.link.mtx.isSome →
          t = marked.setNotices (s.notices.offer s.timeBase (.condition c)))
        ∧ (s.phase = .run → s.ArbiterAtRest → s.link.mtx = none →
          t.conds[c].pending = false ∧ t.notices.entries = []
          ∧ t.link.mtx.map (fun m => m.message) = some
            (({ number := s.notices.next, time := s.timeBase, body := .condition c } : Notice).message t)))
    ∧ (k.latch = true ∨ k.subscribed = false ∨ k.pending = true → t = s.setCond c set)
    ∧ t = { s with conds := t.conds, notices := t.notices, link := t.link }

/-- CONDITIONS_READ reports 168 bytes, the latch, count, subscription and mark of each condition and the level and
qualifier of each sense input, and changes nothing (R144).  CONDITIONS_CLEAR reports and clears the
conditions it names, or all forty, at one moment, keeping subscriptions and marks, and a HIGH qualifier of
a cleared SENSE condition starts afresh (R142, R145, R146).  SUBSCRIBE replaces the whole set (R147). -/
def Obligations.ConditionsAreReadClearedAndSubscribed : Prop :=
  ∀ (s : State) (m : Message) (rest : List Message),
    (s.CanTake m rest 0x70 →
      (m.payload = [] →
        exec .conditionsRead s = .next ((s.taken rest).replied m (Answer.ok
          (s.conds.toList.flatMap Condition.encode ++ s.senses.toList.flatMap Sense.encode))))
      ∧ (m.payload ≠ [] →
        exec .conditionsRead s = .next ((s.taken rest).replied m (Answer.refuse .badLength)))
      ∧ (s.conds.toList.flatMap Condition.encode ++ s.senses.toList.flatMap Sense.encode).length = 168
      ∧ (∀ k : Condition, k.encode = [if k.latch then 1 else 0, k.count, if k.subscribed then 1 else 0,
          if k.pending then 1 else 0])
      ∧ ∀ k : Sense, k.encode = [if k.level then 1 else 0, match k.qualifier with
          | .low => 0
          | .qualifying _ => 1
          | .high => 2])
    ∧ (∀ (scope count : Byte) (ids : List Byte), s.CanTake m rest 0x71 →
      m.payload = scope :: count :: ids → ids.length = count.toNat → count.toNat ≤ 40 →
      let cleared (named : CondId → Bool) : State :=
        { s.taken rest with
          conds := Vector.ofFn fun c =>
            if named c then { s.conds[c] with latch := false, count := 0 } else s.conds[c]
          senses := Vector.ofFn fun n =>
            if named (senseCond n) ∧ s.senses[n].qualifier = .high then
              { s.senses[n] with qualifier := .qualifying 20 }
            else s.senses[n] }
      let report (named : CondId → Bool) : List Byte :=
        natByte (allConds.countP named)
          :: (allConds.filter named).flatMap fun (c : CondId) =>
              [natByte c.val, flagByte s.conds[c].latch, s.conds[c].count]
      (∀ n : SenseId, (senseCond n).val = n.val)
      ∧ (scope = 0 → ids = [] →
        exec .conditionsClear s
          = .next ((cleared fun _ => true).replied m (Answer.ok (report fun _ => true))))
      ∧ (scope = 1 → ids ≠ [] → (∀ i ∈ ids, i.toNat < 40) →
        let named (c : CondId) : Bool := ids.contains (natByte c.val)
        exec .conditionsClear s = .next ((cleared named).replied m (Answer.ok (report named))))
      ∧ (2 ≤ scope.toNat ∨ (scope = 0 ∧ ids ≠ []) ∨ (scope = 1 ∧ ids = [])
          ∨ (scope = 1 ∧ ∃ i ∈ ids, 40 ≤ i.toNat) →
        exec .conditionsClear s = .next ((s.taken rest).replied m (Answer.refuse .badField))))
    ∧ ∀ (count : Byte) (ids : List Byte), s.CanTake m rest 0x72 → m.payload = count :: ids →
      ids.length = count.toNat → count.toNat ≤ 40 →
      ((∀ i ∈ ids, i.toNat < 40) →
        let on (c : CondId) : Bool := ids.contains (natByte c.val)
        exec .subscribe s
          = .next ({ s.taken rest with
              conds := Vector.ofFn fun c => { s.conds[c] with subscribed := on c } }.replied m
            (Answer.ok (natByte (allConds.countP on)
              :: (allConds.filter on).map fun (c : CondId) => natByte c.val))))
      ∧ ((∃ i ∈ ids, 40 ≤ i.toNat) →
        exec .subscribe s = .next ((s.taken rest).replied m (Answer.refuse .badField)))

/-- The sense inputs (R142): SENSE_RISE starts the 200 ns of a LOW qualifier, SENSE_FALL makes it LOW at once,
and SENSE_QUALIFIED makes it HIGH with one occurrence of SENSE(n), id n, which fires the plans waiting on the
input exactly when the latch was clear (R82). -/
def Obligations.SenseInputsQualifyAndFire : Prop :=
  ∀ (s : State) (n : SenseId), s.phase = .run →
    (s.senses[n].qualifier = .low →
      exec (.senseRise n) s
        = .next (s.setSense n { level := true, qualifier := .qualifying 20 }).arbitrate)
    ∧ (s.senses[n].qualifier ≠ .low →
      exec (.senseRise n) s = .next (s.setSense n { s.senses[n] with level := true }).arbitrate)
    ∧ exec (.senseFall n) s = .next (s.setSense n { level := false, qualifier := .low }).arbitrate
    ∧ ∀ (left : Nat) (c : CondId), s.senses[n].qualifier = .qualifying left → c.val = n.val →
      let t := (s.setSense n { s.senses[n] with qualifier := .high }).occur c
      (s.conds[c].latch = true → exec (.senseQualified n) s = .next t.arbitrate)
      ∧ (s.conds[c].latch = false →
          exec (.senseQualified n) s = .next (t.fireWaiting (.sense n)).arbitrate)
      ∧ ∀ k, s.conds[c].latch = false → t.waitingOn (.sense n) = [k] →
          exec (.senseQualified n) s = .next (t.firePlan k none false).arbitrate

/-- The notice queue (R148, R149, R151, R152): an offered notice takes the tail with the next number and the
time stamp of its event while fewer than 32 stand there; else it is lost and counted, and the time of the
first loss is kept.  When a departure leaves 16 with a loss recorded, OVERFLOW takes the tail and the record
is reset.  A block's notice is offered with the time base of its event (R149) and waits while a message is being
sent; with MTX idle the arbiter chooses at once, so a notice that alone is waiting starts in that moment, before the
reply of a request in execution is placed (R163, R166; log entry 7). -/
def Obligations.NoticesAreNumberedLostAndReported : Prop :=
  ∀ (q : NoticeQueue) (t : Word32) (b : NoticeBody),
    (q.entries.length < 32 →
      q.offer t b
        = { q with
            entries := q.entries ++ [{ number := q.next, time := t, body := b }], next := q.next + 1 })
    ∧ (32 ≤ q.entries.length →
      (q.offer t b).entries = q.entries ∧ (q.offer t b).next = q.next
      ∧ (q.offer t b).lost.toNat = min 255 (q.lost.toNat + 1)
      ∧ (q.firstLoss = none → (q.offer t b).firstLoss = some t)
      ∧ ∀ first, q.firstLoss = some first → (q.offer t b).firstLoss = some first)
    ∧ (∀ first, q.firstLoss = some first → q.entries.length = 16 →
      q.afterDeparture t
        = { entries := q.entries ++ [{ number := q.next, time := t, body := .overflow q.lost first }]
            next := q.next + 1, lost := 0, firstLoss := none })
    ∧ (q.firstLoss = none ∨ q.entries.length ≠ 16 → q.afterDeparture t = q)
    ∧ ∀ s : State,
      s.notify b = (s.setNotices (s.notices.offer s.timeBase b)).arbitrate
      ∧ (s.link.mtx.isSome → s.notify b = s.setNotices (s.notices.offer s.timeBase b))
      ∧ (s.phase = .run → s.link.mtx = none → s.link.refusals = [] → s.link.executed = [] →
          s.notices.entries = [] → s.notices.firstLoss = none →
          let n : Notice := { number := s.notices.next, time := s.timeBase, body := b }
          (s.notify b).notices = { s.notices with next := s.notices.next + 1 }
          ∧ (s.notify b).link = { s.link with
              mtx := some
                { message := n.message s, restart := false
                  left := (n.message s).duration s.straps.lrate } })

/-! ### What every step keeps -/

/-- A latch is set exactly while its count is 1 or more (R140), the stores keep to their sizes (R148, R161,
R162), and a pending mark is there exactly while one CONDITION notice for it stands in the queue (R139).  Nothing
waits to be sent while MTX is idle (R166). -/
def Obligations.EveryStepKeepsLatchesStoresAndMarks : Prop :=
  KeptByStep State.LatchesAgree ∧ (KeptByStep fun s => s.StoresBounded ∧ s.MarksAgree)
    ∧ KeptByStep State.ArbiterAtRest

/-- The blocks and descriptors of the injection buffer are divided without overlap or loss (R124). -/
def Obligations.EveryStepConservesThePool : Prop := KeptByStep State.PoolConserved

/-- The guard unit keeps a record for exactly the egresses whose entry has a guard (R52), and every entry
record in force or in a plan is valid (R26). -/
def Obligations.EveryStepKeepsGuardsAndEntries : Prop :=
  KeptByStep State.GuardsMatch ∧ KeptByStep State.EntriesValid

/-- No two slots carry one plan id (R70), and every claim belongs to an ARMED or APPLYING plan, for an egress
it edits and whose edit has not settled (R74). -/
def Obligations.EveryStepKeepsClaimsWithTheirPlans : Prop := KeptByStep State.ClaimsHeld

/-- Every egress sends a well-formed stream (R30): the character it has sent last agrees with its frame position
(INSIDE after OPEN and DATA, OUTSIDE after a terminator, FILL and MARK, and never a VIOLATION), it is INSIDE
exactly while its source is in a frame, and its selector's state agrees with its change and frame position
(section 2.2).  A MARK event waits only while an ingress has its read of the character time still to make (R81; log
entry 34). -/
def Obligations.EveryStepKeepsStreamsWellFormed : Prop :=
  KeptByStep State.StreamsWf ∧ KeptByStep State.MarksWait

/-- The state after reset has every property that steps keep. -/
def Obligations.ResetHasEveryKeptProperty : Prop :=
  State.reset.LatchesAgree ∧ State.reset.StoresBounded ∧ State.reset.MarksAgree
    ∧ State.reset.PoolConserved ∧ State.reset.GuardsMatch ∧ State.reset.EntriesValid
    ∧ State.reset.ClaimsHeld ∧ State.reset.StreamsWf ∧ State.reset.MarksWait ∧ State.reset.ArbiterAtRest
end

