-- ==== Sys2Proof/Laws/State.lean ====
section
/-! SUPPORT. What each update of the state leaves in each field: one lemma per field per update, and the
reads of a table after a write to it. -/

namespace Sys2Proof.Machine

/-! ### setPort -/

@[simp] theorem setPort_phase (s : State) (p : Port) (g : Ingress) : (s.setPort p g).phase = s.phase := rfl
@[simp] theorem setPort_timeBase (s : State) (p : Port) (g : Ingress) : (s.setPort p g).timeBase = s.timeBase := rfl
@[simp] theorem setPort_subMicro (s : State) (p : Port) (g : Ingress) : (s.setPort p g).subMicro = s.subMicro := rfl
@[simp] theorem setPort_strapPins (s : State) (p : Port) (g : Ingress) : (s.setPort p g).strapPins = s.strapPins := rfl
@[simp] theorem setPort_straps (s : State) (p : Port) (g : Ingress) : (s.setPort p g).straps = s.straps := rfl
@[simp] theorem setPort_maxframe (s : State) (p : Port) (g : Ingress) : (s.setPort p g).maxframe = s.maxframe := rfl
@[simp] theorem setPort_ports (s : State) (p : Port) (g : Ingress) : (s.setPort p g).ports = s.ports.set p g := rfl
@[simp] theorem setPort_egresses (s : State) (p : Port) (g : Ingress) : (s.setPort p g).egresses = s.egresses := rfl
@[simp] theorem setPort_guards (s : State) (p : Port) (g : Ingress) : (s.setPort p g).guards = s.guards := rfl
@[simp] theorem setPort_guardSerial (s : State) (p : Port) (g : Ingress) : (s.setPort p g).guardSerial = s.guardSerial := rfl
@[simp] theorem setPort_plans (s : State) (p : Port) (g : Ingress) : (s.setPort p g).plans = s.plans := rfl
@[simp] theorem setPort_claims (s : State) (p : Port) (g : Ingress) : (s.setPort p g).claims = s.claims := rfl
@[simp] theorem setPort_group (s : State) (p : Port) (g : Ingress) : (s.setPort p g).group = s.group := rfl
@[simp] theorem setPort_pattern (s : State) (p : Port) (g : Ingress) : (s.setPort p g).pattern = s.pattern := rfl
@[simp] theorem setPort_pool (s : State) (p : Port) (g : Ingress) : (s.setPort p g).pool = s.pool := rfl
@[simp] theorem setPort_conds (s : State) (p : Port) (g : Ingress) : (s.setPort p g).conds = s.conds := rfl
@[simp] theorem setPort_senses (s : State) (p : Port) (g : Ingress) : (s.setPort p g).senses = s.senses := rfl
@[simp] theorem setPort_notices (s : State) (p : Port) (g : Ingress) : (s.setPort p g).notices = s.notices := rfl
@[simp] theorem setPort_link (s : State) (p : Port) (g : Ingress) : (s.setPort p g).link = s.link := rfl
@[simp] theorem setPort_draws (s : State) (p : Port) (g : Ingress) : (s.setPort p g).draws = s.draws := rfl
@[simp] theorem setPort_pending (s : State) (p : Port) (g : Ingress) : (s.setPort p g).pending = s.pending := rfl

/-! ### setEgress -/

@[simp] theorem setEgress_phase (s : State) (e : Port) (g : Egress) : (s.setEgress e g).phase = s.phase := rfl
@[simp] theorem setEgress_timeBase (s : State) (e : Port) (g : Egress) : (s.setEgress e g).timeBase = s.timeBase := rfl
@[simp] theorem setEgress_subMicro (s : State) (e : Port) (g : Egress) : (s.setEgress e g).subMicro = s.subMicro := rfl
@[simp] theorem setEgress_strapPins (s : State) (e : Port) (g : Egress) : (s.setEgress e g).strapPins = s.strapPins := rfl
@[simp] theorem setEgress_straps (s : State) (e : Port) (g : Egress) : (s.setEgress e g).straps = s.straps := rfl
@[simp] theorem setEgress_maxframe (s : State) (e : Port) (g : Egress) : (s.setEgress e g).maxframe = s.maxframe := rfl
@[simp] theorem setEgress_ports (s : State) (e : Port) (g : Egress) : (s.setEgress e g).ports = s.ports := rfl
@[simp] theorem setEgress_egresses (s : State) (e : Port) (g : Egress) : (s.setEgress e g).egresses = s.egresses.set e g := rfl
@[simp] theorem setEgress_guards (s : State) (e : Port) (g : Egress) : (s.setEgress e g).guards = s.guards := rfl
@[simp] theorem setEgress_guardSerial (s : State) (e : Port) (g : Egress) : (s.setEgress e g).guardSerial = s.guardSerial := rfl
@[simp] theorem setEgress_plans (s : State) (e : Port) (g : Egress) : (s.setEgress e g).plans = s.plans := rfl
@[simp] theorem setEgress_claims (s : State) (e : Port) (g : Egress) : (s.setEgress e g).claims = s.claims := rfl
@[simp] theorem setEgress_group (s : State) (e : Port) (g : Egress) : (s.setEgress e g).group = s.group := rfl
@[simp] theorem setEgress_pattern (s : State) (e : Port) (g : Egress) : (s.setEgress e g).pattern = s.pattern := rfl
@[simp] theorem setEgress_pool (s : State) (e : Port) (g : Egress) : (s.setEgress e g).pool = s.pool := rfl
@[simp] theorem setEgress_conds (s : State) (e : Port) (g : Egress) : (s.setEgress e g).conds = s.conds := rfl
@[simp] theorem setEgress_senses (s : State) (e : Port) (g : Egress) : (s.setEgress e g).senses = s.senses := rfl
@[simp] theorem setEgress_notices (s : State) (e : Port) (g : Egress) : (s.setEgress e g).notices = s.notices := rfl
@[simp] theorem setEgress_link (s : State) (e : Port) (g : Egress) : (s.setEgress e g).link = s.link := rfl
@[simp] theorem setEgress_draws (s : State) (e : Port) (g : Egress) : (s.setEgress e g).draws = s.draws := rfl
@[simp] theorem setEgress_pending (s : State) (e : Port) (g : Egress) : (s.setEgress e g).pending = s.pending := rfl

/-! ### setGuard -/

@[simp] theorem setGuard_phase (s : State) (e : Port) (g : Option Guard) : (s.setGuard e g).phase = s.phase := rfl
@[simp] theorem setGuard_timeBase (s : State) (e : Port) (g : Option Guard) : (s.setGuard e g).timeBase = s.timeBase := rfl
@[simp] theorem setGuard_subMicro (s : State) (e : Port) (g : Option Guard) : (s.setGuard e g).subMicro = s.subMicro := rfl
@[simp] theorem setGuard_strapPins (s : State) (e : Port) (g : Option Guard) : (s.setGuard e g).strapPins = s.strapPins := rfl
@[simp] theorem setGuard_straps (s : State) (e : Port) (g : Option Guard) : (s.setGuard e g).straps = s.straps := rfl
@[simp] theorem setGuard_maxframe (s : State) (e : Port) (g : Option Guard) : (s.setGuard e g).maxframe = s.maxframe := rfl
@[simp] theorem setGuard_ports (s : State) (e : Port) (g : Option Guard) : (s.setGuard e g).ports = s.ports := rfl
@[simp] theorem setGuard_egresses (s : State) (e : Port) (g : Option Guard) : (s.setGuard e g).egresses = s.egresses := rfl
@[simp] theorem setGuard_guards (s : State) (e : Port) (g : Option Guard) : (s.setGuard e g).guards = s.guards.set e g := rfl
@[simp] theorem setGuard_guardSerial (s : State) (e : Port) (g : Option Guard) : (s.setGuard e g).guardSerial = s.guardSerial := rfl
@[simp] theorem setGuard_plans (s : State) (e : Port) (g : Option Guard) : (s.setGuard e g).plans = s.plans := rfl
@[simp] theorem setGuard_claims (s : State) (e : Port) (g : Option Guard) : (s.setGuard e g).claims = s.claims := rfl
@[simp] theorem setGuard_group (s : State) (e : Port) (g : Option Guard) : (s.setGuard e g).group = s.group := rfl
@[simp] theorem setGuard_pattern (s : State) (e : Port) (g : Option Guard) : (s.setGuard e g).pattern = s.pattern := rfl
@[simp] theorem setGuard_pool (s : State) (e : Port) (g : Option Guard) : (s.setGuard e g).pool = s.pool := rfl
@[simp] theorem setGuard_conds (s : State) (e : Port) (g : Option Guard) : (s.setGuard e g).conds = s.conds := rfl
@[simp] theorem setGuard_senses (s : State) (e : Port) (g : Option Guard) : (s.setGuard e g).senses = s.senses := rfl
@[simp] theorem setGuard_notices (s : State) (e : Port) (g : Option Guard) : (s.setGuard e g).notices = s.notices := rfl
@[simp] theorem setGuard_link (s : State) (e : Port) (g : Option Guard) : (s.setGuard e g).link = s.link := rfl
@[simp] theorem setGuard_draws (s : State) (e : Port) (g : Option Guard) : (s.setGuard e g).draws = s.draws := rfl
@[simp] theorem setGuard_pending (s : State) (e : Port) (g : Option Guard) : (s.setGuard e g).pending = s.pending := rfl

/-! ### setPlan -/

@[simp] theorem setPlan_phase (s : State) (k : SlotId) (p : Option Plan) : (s.setPlan k p).phase = s.phase := rfl
@[simp] theorem setPlan_timeBase (s : State) (k : SlotId) (p : Option Plan) : (s.setPlan k p).timeBase = s.timeBase := rfl
@[simp] theorem setPlan_subMicro (s : State) (k : SlotId) (p : Option Plan) : (s.setPlan k p).subMicro = s.subMicro := rfl
@[simp] theorem setPlan_strapPins (s : State) (k : SlotId) (p : Option Plan) : (s.setPlan k p).strapPins = s.strapPins := rfl
@[simp] theorem setPlan_straps (s : State) (k : SlotId) (p : Option Plan) : (s.setPlan k p).straps = s.straps := rfl
@[simp] theorem setPlan_maxframe (s : State) (k : SlotId) (p : Option Plan) : (s.setPlan k p).maxframe = s.maxframe := rfl
@[simp] theorem setPlan_ports (s : State) (k : SlotId) (p : Option Plan) : (s.setPlan k p).ports = s.ports := rfl
@[simp] theorem setPlan_egresses (s : State) (k : SlotId) (p : Option Plan) : (s.setPlan k p).egresses = s.egresses := rfl
@[simp] theorem setPlan_guards (s : State) (k : SlotId) (p : Option Plan) : (s.setPlan k p).guards = s.guards := rfl
@[simp] theorem setPlan_guardSerial (s : State) (k : SlotId) (p : Option Plan) : (s.setPlan k p).guardSerial = s.guardSerial := rfl
@[simp] theorem setPlan_plans (s : State) (k : SlotId) (p : Option Plan) : (s.setPlan k p).plans = s.plans.set k p := rfl
@[simp] theorem setPlan_claims (s : State) (k : SlotId) (p : Option Plan) : (s.setPlan k p).claims = s.claims := rfl
@[simp] theorem setPlan_group (s : State) (k : SlotId) (p : Option Plan) : (s.setPlan k p).group = s.group := rfl
@[simp] theorem setPlan_pattern (s : State) (k : SlotId) (p : Option Plan) : (s.setPlan k p).pattern = s.pattern := rfl
@[simp] theorem setPlan_pool (s : State) (k : SlotId) (p : Option Plan) : (s.setPlan k p).pool = s.pool := rfl
@[simp] theorem setPlan_conds (s : State) (k : SlotId) (p : Option Plan) : (s.setPlan k p).conds = s.conds := rfl
@[simp] theorem setPlan_senses (s : State) (k : SlotId) (p : Option Plan) : (s.setPlan k p).senses = s.senses := rfl
@[simp] theorem setPlan_notices (s : State) (k : SlotId) (p : Option Plan) : (s.setPlan k p).notices = s.notices := rfl
@[simp] theorem setPlan_link (s : State) (k : SlotId) (p : Option Plan) : (s.setPlan k p).link = s.link := rfl
@[simp] theorem setPlan_draws (s : State) (k : SlotId) (p : Option Plan) : (s.setPlan k p).draws = s.draws := rfl
@[simp] theorem setPlan_pending (s : State) (k : SlotId) (p : Option Plan) : (s.setPlan k p).pending = s.pending := rfl

/-! ### setClaim -/

@[simp] theorem setClaim_phase (s : State) (e : Port) (c : Option Byte) : (s.setClaim e c).phase = s.phase := rfl
@[simp] theorem setClaim_timeBase (s : State) (e : Port) (c : Option Byte) : (s.setClaim e c).timeBase = s.timeBase := rfl
@[simp] theorem setClaim_subMicro (s : State) (e : Port) (c : Option Byte) : (s.setClaim e c).subMicro = s.subMicro := rfl
@[simp] theorem setClaim_strapPins (s : State) (e : Port) (c : Option Byte) : (s.setClaim e c).strapPins = s.strapPins := rfl
@[simp] theorem setClaim_straps (s : State) (e : Port) (c : Option Byte) : (s.setClaim e c).straps = s.straps := rfl
@[simp] theorem setClaim_maxframe (s : State) (e : Port) (c : Option Byte) : (s.setClaim e c).maxframe = s.maxframe := rfl
@[simp] theorem setClaim_ports (s : State) (e : Port) (c : Option Byte) : (s.setClaim e c).ports = s.ports := rfl
@[simp] theorem setClaim_egresses (s : State) (e : Port) (c : Option Byte) : (s.setClaim e c).egresses = s.egresses := rfl
@[simp] theorem setClaim_guards (s : State) (e : Port) (c : Option Byte) : (s.setClaim e c).guards = s.guards := rfl
@[simp] theorem setClaim_guardSerial (s : State) (e : Port) (c : Option Byte) : (s.setClaim e c).guardSerial = s.guardSerial := rfl
@[simp] theorem setClaim_plans (s : State) (e : Port) (c : Option Byte) : (s.setClaim e c).plans = s.plans := rfl
@[simp] theorem setClaim_claims (s : State) (e : Port) (c : Option Byte) : (s.setClaim e c).claims = s.claims.set e c := rfl
@[simp] theorem setClaim_group (s : State) (e : Port) (c : Option Byte) : (s.setClaim e c).group = s.group := rfl
@[simp] theorem setClaim_pattern (s : State) (e : Port) (c : Option Byte) : (s.setClaim e c).pattern = s.pattern := rfl
@[simp] theorem setClaim_pool (s : State) (e : Port) (c : Option Byte) : (s.setClaim e c).pool = s.pool := rfl
@[simp] theorem setClaim_conds (s : State) (e : Port) (c : Option Byte) : (s.setClaim e c).conds = s.conds := rfl
@[simp] theorem setClaim_senses (s : State) (e : Port) (c : Option Byte) : (s.setClaim e c).senses = s.senses := rfl
@[simp] theorem setClaim_notices (s : State) (e : Port) (c : Option Byte) : (s.setClaim e c).notices = s.notices := rfl
@[simp] theorem setClaim_link (s : State) (e : Port) (c : Option Byte) : (s.setClaim e c).link = s.link := rfl
@[simp] theorem setClaim_draws (s : State) (e : Port) (c : Option Byte) : (s.setClaim e c).draws = s.draws := rfl
@[simp] theorem setClaim_pending (s : State) (e : Port) (c : Option Byte) : (s.setClaim e c).pending = s.pending := rfl

/-! ### setGroup -/

@[simp] theorem setGroup_phase (s : State) (g : Group) : (s.setGroup g).phase = s.phase := rfl
@[simp] theorem setGroup_timeBase (s : State) (g : Group) : (s.setGroup g).timeBase = s.timeBase := rfl
@[simp] theorem setGroup_subMicro (s : State) (g : Group) : (s.setGroup g).subMicro = s.subMicro := rfl
@[simp] theorem setGroup_strapPins (s : State) (g : Group) : (s.setGroup g).strapPins = s.strapPins := rfl
@[simp] theorem setGroup_straps (s : State) (g : Group) : (s.setGroup g).straps = s.straps := rfl
@[simp] theorem setGroup_maxframe (s : State) (g : Group) : (s.setGroup g).maxframe = s.maxframe := rfl
@[simp] theorem setGroup_ports (s : State) (g : Group) : (s.setGroup g).ports = s.ports := rfl
@[simp] theorem setGroup_egresses (s : State) (g : Group) : (s.setGroup g).egresses = s.egresses := rfl
@[simp] theorem setGroup_guards (s : State) (g : Group) : (s.setGroup g).guards = s.guards := rfl
@[simp] theorem setGroup_guardSerial (s : State) (g : Group) : (s.setGroup g).guardSerial = s.guardSerial := rfl
@[simp] theorem setGroup_plans (s : State) (g : Group) : (s.setGroup g).plans = s.plans := rfl
@[simp] theorem setGroup_claims (s : State) (g : Group) : (s.setGroup g).claims = s.claims := rfl
@[simp] theorem setGroup_group (s : State) (g : Group) : (s.setGroup g).group = g := rfl
@[simp] theorem setGroup_pattern (s : State) (g : Group) : (s.setGroup g).pattern = s.pattern := rfl
@[simp] theorem setGroup_pool (s : State) (g : Group) : (s.setGroup g).pool = s.pool := rfl
@[simp] theorem setGroup_conds (s : State) (g : Group) : (s.setGroup g).conds = s.conds := rfl
@[simp] theorem setGroup_senses (s : State) (g : Group) : (s.setGroup g).senses = s.senses := rfl
@[simp] theorem setGroup_notices (s : State) (g : Group) : (s.setGroup g).notices = s.notices := rfl
@[simp] theorem setGroup_link (s : State) (g : Group) : (s.setGroup g).link = s.link := rfl
@[simp] theorem setGroup_draws (s : State) (g : Group) : (s.setGroup g).draws = s.draws := rfl
@[simp] theorem setGroup_pending (s : State) (g : Group) : (s.setGroup g).pending = s.pending := rfl

/-! ### setPattern -/

@[simp] theorem setPattern_phase (s : State) (g : Pattern) : (s.setPattern g).phase = s.phase := rfl
@[simp] theorem setPattern_timeBase (s : State) (g : Pattern) : (s.setPattern g).timeBase = s.timeBase := rfl
@[simp] theorem setPattern_subMicro (s : State) (g : Pattern) : (s.setPattern g).subMicro = s.subMicro := rfl
@[simp] theorem setPattern_strapPins (s : State) (g : Pattern) : (s.setPattern g).strapPins = s.strapPins := rfl
@[simp] theorem setPattern_straps (s : State) (g : Pattern) : (s.setPattern g).straps = s.straps := rfl
@[simp] theorem setPattern_maxframe (s : State) (g : Pattern) : (s.setPattern g).maxframe = s.maxframe := rfl
@[simp] theorem setPattern_ports (s : State) (g : Pattern) : (s.setPattern g).ports = s.ports := rfl
@[simp] theorem setPattern_egresses (s : State) (g : Pattern) : (s.setPattern g).egresses = s.egresses := rfl
@[simp] theorem setPattern_guards (s : State) (g : Pattern) : (s.setPattern g).guards = s.guards := rfl
@[simp] theorem setPattern_guardSerial (s : State) (g : Pattern) : (s.setPattern g).guardSerial = s.guardSerial := rfl
@[simp] theorem setPattern_plans (s : State) (g : Pattern) : (s.setPattern g).plans = s.plans := rfl
@[simp] theorem setPattern_claims (s : State) (g : Pattern) : (s.setPattern g).claims = s.claims := rfl
@[simp] theorem setPattern_group (s : State) (g : Pattern) : (s.setPattern g).group = s.group := rfl
@[simp] theorem setPattern_pattern (s : State) (g : Pattern) : (s.setPattern g).pattern = g := rfl
@[simp] theorem setPattern_pool (s : State) (g : Pattern) : (s.setPattern g).pool = s.pool := rfl
@[simp] theorem setPattern_conds (s : State) (g : Pattern) : (s.setPattern g).conds = s.conds := rfl
@[simp] theorem setPattern_senses (s : State) (g : Pattern) : (s.setPattern g).senses = s.senses := rfl
@[simp] theorem setPattern_notices (s : State) (g : Pattern) : (s.setPattern g).notices = s.notices := rfl
@[simp] theorem setPattern_link (s : State) (g : Pattern) : (s.setPattern g).link = s.link := rfl
@[simp] theorem setPattern_draws (s : State) (g : Pattern) : (s.setPattern g).draws = s.draws := rfl
@[simp] theorem setPattern_pending (s : State) (g : Pattern) : (s.setPattern g).pending = s.pending := rfl

/-! ### setPool -/

@[simp] theorem setPool_phase (s : State) (p : Pool) : (s.setPool p).phase = s.phase := rfl
@[simp] theorem setPool_timeBase (s : State) (p : Pool) : (s.setPool p).timeBase = s.timeBase := rfl
@[simp] theorem setPool_subMicro (s : State) (p : Pool) : (s.setPool p).subMicro = s.subMicro := rfl
@[simp] theorem setPool_strapPins (s : State) (p : Pool) : (s.setPool p).strapPins = s.strapPins := rfl
@[simp] theorem setPool_straps (s : State) (p : Pool) : (s.setPool p).straps = s.straps := rfl
@[simp] theorem setPool_maxframe (s : State) (p : Pool) : (s.setPool p).maxframe = s.maxframe := rfl
@[simp] theorem setPool_ports (s : State) (p : Pool) : (s.setPool p).ports = s.ports := rfl
@[simp] theorem setPool_egresses (s : State) (p : Pool) : (s.setPool p).egresses = s.egresses := rfl
@[simp] theorem setPool_guards (s : State) (p : Pool) : (s.setPool p).guards = s.guards := rfl
@[simp] theorem setPool_guardSerial (s : State) (p : Pool) : (s.setPool p).guardSerial = s.guardSerial := rfl
@[simp] theorem setPool_plans (s : State) (p : Pool) : (s.setPool p).plans = s.plans := rfl
@[simp] theorem setPool_claims (s : State) (p : Pool) : (s.setPool p).claims = s.claims := rfl
@[simp] theorem setPool_group (s : State) (p : Pool) : (s.setPool p).group = s.group := rfl
@[simp] theorem setPool_pattern (s : State) (p : Pool) : (s.setPool p).pattern = s.pattern := rfl
@[simp] theorem setPool_pool (s : State) (p : Pool) : (s.setPool p).pool = p := rfl
@[simp] theorem setPool_conds (s : State) (p : Pool) : (s.setPool p).conds = s.conds := rfl
@[simp] theorem setPool_senses (s : State) (p : Pool) : (s.setPool p).senses = s.senses := rfl
@[simp] theorem setPool_notices (s : State) (p : Pool) : (s.setPool p).notices = s.notices := rfl
@[simp] theorem setPool_link (s : State) (p : Pool) : (s.setPool p).link = s.link := rfl
@[simp] theorem setPool_draws (s : State) (p : Pool) : (s.setPool p).draws = s.draws := rfl
@[simp] theorem setPool_pending (s : State) (p : Pool) : (s.setPool p).pending = s.pending := rfl

/-! ### setCond -/

@[simp] theorem setCond_phase (s : State) (c : CondId) (k : Condition) : (s.setCond c k).phase = s.phase := rfl
@[simp] theorem setCond_timeBase (s : State) (c : CondId) (k : Condition) : (s.setCond c k).timeBase = s.timeBase := rfl
@[simp] theorem setCond_subMicro (s : State) (c : CondId) (k : Condition) : (s.setCond c k).subMicro = s.subMicro := rfl
@[simp] theorem setCond_strapPins (s : State) (c : CondId) (k : Condition) : (s.setCond c k).strapPins = s.strapPins := rfl
@[simp] theorem setCond_straps (s : State) (c : CondId) (k : Condition) : (s.setCond c k).straps = s.straps := rfl
@[simp] theorem setCond_maxframe (s : State) (c : CondId) (k : Condition) : (s.setCond c k).maxframe = s.maxframe := rfl
@[simp] theorem setCond_ports (s : State) (c : CondId) (k : Condition) : (s.setCond c k).ports = s.ports := rfl
@[simp] theorem setCond_egresses (s : State) (c : CondId) (k : Condition) : (s.setCond c k).egresses = s.egresses := rfl
@[simp] theorem setCond_guards (s : State) (c : CondId) (k : Condition) : (s.setCond c k).guards = s.guards := rfl
@[simp] theorem setCond_guardSerial (s : State) (c : CondId) (k : Condition) : (s.setCond c k).guardSerial = s.guardSerial := rfl
@[simp] theorem setCond_plans (s : State) (c : CondId) (k : Condition) : (s.setCond c k).plans = s.plans := rfl
@[simp] theorem setCond_claims (s : State) (c : CondId) (k : Condition) : (s.setCond c k).claims = s.claims := rfl
@[simp] theorem setCond_group (s : State) (c : CondId) (k : Condition) : (s.setCond c k).group = s.group := rfl
@[simp] theorem setCond_pattern (s : State) (c : CondId) (k : Condition) : (s.setCond c k).pattern = s.pattern := rfl
@[simp] theorem setCond_pool (s : State) (c : CondId) (k : Condition) : (s.setCond c k).pool = s.pool := rfl
@[simp] theorem setCond_conds (s : State) (c : CondId) (k : Condition) : (s.setCond c k).conds = s.conds.set c k := rfl
@[simp] theorem setCond_senses (s : State) (c : CondId) (k : Condition) : (s.setCond c k).senses = s.senses := rfl
@[simp] theorem setCond_notices (s : State) (c : CondId) (k : Condition) : (s.setCond c k).notices = s.notices := rfl
@[simp] theorem setCond_link (s : State) (c : CondId) (k : Condition) : (s.setCond c k).link = s.link := rfl
@[simp] theorem setCond_draws (s : State) (c : CondId) (k : Condition) : (s.setCond c k).draws = s.draws := rfl
@[simp] theorem setCond_pending (s : State) (c : CondId) (k : Condition) : (s.setCond c k).pending = s.pending := rfl

/-! ### setSense -/

@[simp] theorem setSense_phase (s : State) (n : SenseId) (k : Sense) : (s.setSense n k).phase = s.phase := rfl
@[simp] theorem setSense_timeBase (s : State) (n : SenseId) (k : Sense) : (s.setSense n k).timeBase = s.timeBase := rfl
@[simp] theorem setSense_subMicro (s : State) (n : SenseId) (k : Sense) : (s.setSense n k).subMicro = s.subMicro := rfl
@[simp] theorem setSense_strapPins (s : State) (n : SenseId) (k : Sense) : (s.setSense n k).strapPins = s.strapPins := rfl
@[simp] theorem setSense_straps (s : State) (n : SenseId) (k : Sense) : (s.setSense n k).straps = s.straps := rfl
@[simp] theorem setSense_maxframe (s : State) (n : SenseId) (k : Sense) : (s.setSense n k).maxframe = s.maxframe := rfl
@[simp] theorem setSense_ports (s : State) (n : SenseId) (k : Sense) : (s.setSense n k).ports = s.ports := rfl
@[simp] theorem setSense_egresses (s : State) (n : SenseId) (k : Sense) : (s.setSense n k).egresses = s.egresses := rfl
@[simp] theorem setSense_guards (s : State) (n : SenseId) (k : Sense) : (s.setSense n k).guards = s.guards := rfl
@[simp] theorem setSense_guardSerial (s : State) (n : SenseId) (k : Sense) : (s.setSense n k).guardSerial = s.guardSerial := rfl
@[simp] theorem setSense_plans (s : State) (n : SenseId) (k : Sense) : (s.setSense n k).plans = s.plans := rfl
@[simp] theorem setSense_claims (s : State) (n : SenseId) (k : Sense) : (s.setSense n k).claims = s.claims := rfl
@[simp] theorem setSense_group (s : State) (n : SenseId) (k : Sense) : (s.setSense n k).group = s.group := rfl
@[simp] theorem setSense_pattern (s : State) (n : SenseId) (k : Sense) : (s.setSense n k).pattern = s.pattern := rfl
@[simp] theorem setSense_pool (s : State) (n : SenseId) (k : Sense) : (s.setSense n k).pool = s.pool := rfl
@[simp] theorem setSense_conds (s : State) (n : SenseId) (k : Sense) : (s.setSense n k).conds = s.conds := rfl
@[simp] theorem setSense_senses (s : State) (n : SenseId) (k : Sense) : (s.setSense n k).senses = s.senses.set n k := rfl
@[simp] theorem setSense_notices (s : State) (n : SenseId) (k : Sense) : (s.setSense n k).notices = s.notices := rfl
@[simp] theorem setSense_link (s : State) (n : SenseId) (k : Sense) : (s.setSense n k).link = s.link := rfl
@[simp] theorem setSense_draws (s : State) (n : SenseId) (k : Sense) : (s.setSense n k).draws = s.draws := rfl
@[simp] theorem setSense_pending (s : State) (n : SenseId) (k : Sense) : (s.setSense n k).pending = s.pending := rfl

/-! ### setNotices -/

@[simp] theorem setNotices_phase (s : State) (q : NoticeQueue) : (s.setNotices q).phase = s.phase := rfl
@[simp] theorem setNotices_timeBase (s : State) (q : NoticeQueue) : (s.setNotices q).timeBase = s.timeBase := rfl
@[simp] theorem setNotices_subMicro (s : State) (q : NoticeQueue) : (s.setNotices q).subMicro = s.subMicro := rfl
@[simp] theorem setNotices_strapPins (s : State) (q : NoticeQueue) : (s.setNotices q).strapPins = s.strapPins := rfl
@[simp] theorem setNotices_straps (s : State) (q : NoticeQueue) : (s.setNotices q).straps = s.straps := rfl
@[simp] theorem setNotices_maxframe (s : State) (q : NoticeQueue) : (s.setNotices q).maxframe = s.maxframe := rfl
@[simp] theorem setNotices_ports (s : State) (q : NoticeQueue) : (s.setNotices q).ports = s.ports := rfl
@[simp] theorem setNotices_egresses (s : State) (q : NoticeQueue) : (s.setNotices q).egresses = s.egresses := rfl
@[simp] theorem setNotices_guards (s : State) (q : NoticeQueue) : (s.setNotices q).guards = s.guards := rfl
@[simp] theorem setNotices_guardSerial (s : State) (q : NoticeQueue) : (s.setNotices q).guardSerial = s.guardSerial := rfl
@[simp] theorem setNotices_plans (s : State) (q : NoticeQueue) : (s.setNotices q).plans = s.plans := rfl
@[simp] theorem setNotices_claims (s : State) (q : NoticeQueue) : (s.setNotices q).claims = s.claims := rfl
@[simp] theorem setNotices_group (s : State) (q : NoticeQueue) : (s.setNotices q).group = s.group := rfl
@[simp] theorem setNotices_pattern (s : State) (q : NoticeQueue) : (s.setNotices q).pattern = s.pattern := rfl
@[simp] theorem setNotices_pool (s : State) (q : NoticeQueue) : (s.setNotices q).pool = s.pool := rfl
@[simp] theorem setNotices_conds (s : State) (q : NoticeQueue) : (s.setNotices q).conds = s.conds := rfl
@[simp] theorem setNotices_senses (s : State) (q : NoticeQueue) : (s.setNotices q).senses = s.senses := rfl
@[simp] theorem setNotices_notices (s : State) (q : NoticeQueue) : (s.setNotices q).notices = q := rfl
@[simp] theorem setNotices_link (s : State) (q : NoticeQueue) : (s.setNotices q).link = s.link := rfl
@[simp] theorem setNotices_draws (s : State) (q : NoticeQueue) : (s.setNotices q).draws = s.draws := rfl
@[simp] theorem setNotices_pending (s : State) (q : NoticeQueue) : (s.setNotices q).pending = s.pending := rfl

/-! ### setLink -/

@[simp] theorem setLink_phase (s : State) (l : Link) : (s.setLink l).phase = s.phase := rfl
@[simp] theorem setLink_timeBase (s : State) (l : Link) : (s.setLink l).timeBase = s.timeBase := rfl
@[simp] theorem setLink_subMicro (s : State) (l : Link) : (s.setLink l).subMicro = s.subMicro := rfl
@[simp] theorem setLink_strapPins (s : State) (l : Link) : (s.setLink l).strapPins = s.strapPins := rfl
@[simp] theorem setLink_straps (s : State) (l : Link) : (s.setLink l).straps = s.straps := rfl
@[simp] theorem setLink_maxframe (s : State) (l : Link) : (s.setLink l).maxframe = s.maxframe := rfl
@[simp] theorem setLink_ports (s : State) (l : Link) : (s.setLink l).ports = s.ports := rfl
@[simp] theorem setLink_egresses (s : State) (l : Link) : (s.setLink l).egresses = s.egresses := rfl
@[simp] theorem setLink_guards (s : State) (l : Link) : (s.setLink l).guards = s.guards := rfl
@[simp] theorem setLink_guardSerial (s : State) (l : Link) : (s.setLink l).guardSerial = s.guardSerial := rfl
@[simp] theorem setLink_plans (s : State) (l : Link) : (s.setLink l).plans = s.plans := rfl
@[simp] theorem setLink_claims (s : State) (l : Link) : (s.setLink l).claims = s.claims := rfl
@[simp] theorem setLink_group (s : State) (l : Link) : (s.setLink l).group = s.group := rfl
@[simp] theorem setLink_pattern (s : State) (l : Link) : (s.setLink l).pattern = s.pattern := rfl
@[simp] theorem setLink_pool (s : State) (l : Link) : (s.setLink l).pool = s.pool := rfl
@[simp] theorem setLink_conds (s : State) (l : Link) : (s.setLink l).conds = s.conds := rfl
@[simp] theorem setLink_senses (s : State) (l : Link) : (s.setLink l).senses = s.senses := rfl
@[simp] theorem setLink_notices (s : State) (l : Link) : (s.setLink l).notices = s.notices := rfl
@[simp] theorem setLink_link (s : State) (l : Link) : (s.setLink l).link = l := rfl
@[simp] theorem setLink_draws (s : State) (l : Link) : (s.setLink l).draws = s.draws := rfl
@[simp] theorem setLink_pending (s : State) (l : Link) : (s.setLink l).pending = s.pending := rfl

/-! ### setMaxframe -/

@[simp] theorem setMaxframe_phase (s : State) (n : Nat) : (s.setMaxframe n).phase = s.phase := rfl
@[simp] theorem setMaxframe_timeBase (s : State) (n : Nat) : (s.setMaxframe n).timeBase = s.timeBase := rfl
@[simp] theorem setMaxframe_subMicro (s : State) (n : Nat) : (s.setMaxframe n).subMicro = s.subMicro := rfl
@[simp] theorem setMaxframe_strapPins (s : State) (n : Nat) : (s.setMaxframe n).strapPins = s.strapPins := rfl
@[simp] theorem setMaxframe_straps (s : State) (n : Nat) : (s.setMaxframe n).straps = s.straps := rfl
@[simp] theorem setMaxframe_maxframe (s : State) (n : Nat) : (s.setMaxframe n).maxframe = n := rfl
@[simp] theorem setMaxframe_ports (s : State) (n : Nat) : (s.setMaxframe n).ports = s.ports := rfl
@[simp] theorem setMaxframe_egresses (s : State) (n : Nat) : (s.setMaxframe n).egresses = s.egresses := rfl
@[simp] theorem setMaxframe_guards (s : State) (n : Nat) : (s.setMaxframe n).guards = s.guards := rfl
@[simp] theorem setMaxframe_guardSerial (s : State) (n : Nat) : (s.setMaxframe n).guardSerial = s.guardSerial := rfl
@[simp] theorem setMaxframe_plans (s : State) (n : Nat) : (s.setMaxframe n).plans = s.plans := rfl
@[simp] theorem setMaxframe_claims (s : State) (n : Nat) : (s.setMaxframe n).claims = s.claims := rfl
@[simp] theorem setMaxframe_group (s : State) (n : Nat) : (s.setMaxframe n).group = s.group := rfl
@[simp] theorem setMaxframe_pattern (s : State) (n : Nat) : (s.setMaxframe n).pattern = s.pattern := rfl
@[simp] theorem setMaxframe_pool (s : State) (n : Nat) : (s.setMaxframe n).pool = s.pool := rfl
@[simp] theorem setMaxframe_conds (s : State) (n : Nat) : (s.setMaxframe n).conds = s.conds := rfl
@[simp] theorem setMaxframe_senses (s : State) (n : Nat) : (s.setMaxframe n).senses = s.senses := rfl
@[simp] theorem setMaxframe_notices (s : State) (n : Nat) : (s.setMaxframe n).notices = s.notices := rfl
@[simp] theorem setMaxframe_link (s : State) (n : Nat) : (s.setMaxframe n).link = s.link := rfl
@[simp] theorem setMaxframe_draws (s : State) (n : Nat) : (s.setMaxframe n).draws = s.draws := rfl
@[simp] theorem setMaxframe_pending (s : State) (n : Nat) : (s.setMaxframe n).pending = s.pending := rfl

/-! ### setSerial -/

@[simp] theorem setSerial_phase (s : State) (n : Nat) : (s.setSerial n).phase = s.phase := rfl
@[simp] theorem setSerial_timeBase (s : State) (n : Nat) : (s.setSerial n).timeBase = s.timeBase := rfl
@[simp] theorem setSerial_subMicro (s : State) (n : Nat) : (s.setSerial n).subMicro = s.subMicro := rfl
@[simp] theorem setSerial_strapPins (s : State) (n : Nat) : (s.setSerial n).strapPins = s.strapPins := rfl
@[simp] theorem setSerial_straps (s : State) (n : Nat) : (s.setSerial n).straps = s.straps := rfl
@[simp] theorem setSerial_maxframe (s : State) (n : Nat) : (s.setSerial n).maxframe = s.maxframe := rfl
@[simp] theorem setSerial_ports (s : State) (n : Nat) : (s.setSerial n).ports = s.ports := rfl
@[simp] theorem setSerial_egresses (s : State) (n : Nat) : (s.setSerial n).egresses = s.egresses := rfl
@[simp] theorem setSerial_guards (s : State) (n : Nat) : (s.setSerial n).guards = s.guards := rfl
@[simp] theorem setSerial_guardSerial (s : State) (n : Nat) : (s.setSerial n).guardSerial = n := rfl
@[simp] theorem setSerial_plans (s : State) (n : Nat) : (s.setSerial n).plans = s.plans := rfl
@[simp] theorem setSerial_claims (s : State) (n : Nat) : (s.setSerial n).claims = s.claims := rfl
@[simp] theorem setSerial_group (s : State) (n : Nat) : (s.setSerial n).group = s.group := rfl
@[simp] theorem setSerial_pattern (s : State) (n : Nat) : (s.setSerial n).pattern = s.pattern := rfl
@[simp] theorem setSerial_pool (s : State) (n : Nat) : (s.setSerial n).pool = s.pool := rfl
@[simp] theorem setSerial_conds (s : State) (n : Nat) : (s.setSerial n).conds = s.conds := rfl
@[simp] theorem setSerial_senses (s : State) (n : Nat) : (s.setSerial n).senses = s.senses := rfl
@[simp] theorem setSerial_notices (s : State) (n : Nat) : (s.setSerial n).notices = s.notices := rfl
@[simp] theorem setSerial_link (s : State) (n : Nat) : (s.setSerial n).link = s.link := rfl
@[simp] theorem setSerial_draws (s : State) (n : Nat) : (s.setSerial n).draws = s.draws := rfl
@[simp] theorem setSerial_pending (s : State) (n : Nat) : (s.setSerial n).pending = s.pending := rfl

/-! ### setDraws -/

@[simp] theorem setDraws_phase (s : State) (n : Nat) : (s.setDraws n).phase = s.phase := rfl
@[simp] theorem setDraws_timeBase (s : State) (n : Nat) : (s.setDraws n).timeBase = s.timeBase := rfl
@[simp] theorem setDraws_subMicro (s : State) (n : Nat) : (s.setDraws n).subMicro = s.subMicro := rfl
@[simp] theorem setDraws_strapPins (s : State) (n : Nat) : (s.setDraws n).strapPins = s.strapPins := rfl
@[simp] theorem setDraws_straps (s : State) (n : Nat) : (s.setDraws n).straps = s.straps := rfl
@[simp] theorem setDraws_maxframe (s : State) (n : Nat) : (s.setDraws n).maxframe = s.maxframe := rfl
@[simp] theorem setDraws_ports (s : State) (n : Nat) : (s.setDraws n).ports = s.ports := rfl
@[simp] theorem setDraws_egresses (s : State) (n : Nat) : (s.setDraws n).egresses = s.egresses := rfl
@[simp] theorem setDraws_guards (s : State) (n : Nat) : (s.setDraws n).guards = s.guards := rfl
@[simp] theorem setDraws_guardSerial (s : State) (n : Nat) : (s.setDraws n).guardSerial = s.guardSerial := rfl
@[simp] theorem setDraws_plans (s : State) (n : Nat) : (s.setDraws n).plans = s.plans := rfl
@[simp] theorem setDraws_claims (s : State) (n : Nat) : (s.setDraws n).claims = s.claims := rfl
@[simp] theorem setDraws_group (s : State) (n : Nat) : (s.setDraws n).group = s.group := rfl
@[simp] theorem setDraws_pattern (s : State) (n : Nat) : (s.setDraws n).pattern = s.pattern := rfl
@[simp] theorem setDraws_pool (s : State) (n : Nat) : (s.setDraws n).pool = s.pool := rfl
@[simp] theorem setDraws_conds (s : State) (n : Nat) : (s.setDraws n).conds = s.conds := rfl
@[simp] theorem setDraws_senses (s : State) (n : Nat) : (s.setDraws n).senses = s.senses := rfl
@[simp] theorem setDraws_notices (s : State) (n : Nat) : (s.setDraws n).notices = s.notices := rfl
@[simp] theorem setDraws_link (s : State) (n : Nat) : (s.setDraws n).link = s.link := rfl
@[simp] theorem setDraws_draws (s : State) (n : Nat) : (s.setDraws n).draws = n := rfl
@[simp] theorem setDraws_pending (s : State) (n : Nat) : (s.setDraws n).pending = s.pending := rfl

/-! ### Reads of a table after a write -/

@[simp] theorem setPort_same (s : State) (p : Port) (g : Ingress) : (s.setPort p g).ports[p] = g := by
  simp [State.setPort]

theorem setPort_other (s : State) (p : Port) (g : Ingress) (j : Port) (h : j ≠ p) :
    (s.setPort p g).ports[j] = s.ports[j] := by
  have : p.val ≠ j.val := fun e => h (Fin.ext e.symm)
  simp [State.setPort, this]

@[simp] theorem setEgress_same (s : State) (e : Port) (g : Egress) : (s.setEgress e g).egresses[e] = g := by
  simp [State.setEgress]

theorem setEgress_other (s : State) (e : Port) (g : Egress) (j : Port) (h : j ≠ e) :
    (s.setEgress e g).egresses[j] = s.egresses[j] := by
  have : e.val ≠ j.val := fun e => h (Fin.ext e.symm)
  simp [State.setEgress, this]

@[simp] theorem setGuard_same (s : State) (e : Port) (g : Option Guard) : (s.setGuard e g).guards[e] = g := by
  simp [State.setGuard]

theorem setGuard_other (s : State) (e : Port) (g : Option Guard) (j : Port) (h : j ≠ e) :
    (s.setGuard e g).guards[j] = s.guards[j] := by
  have : e.val ≠ j.val := fun e => h (Fin.ext e.symm)
  simp [State.setGuard, this]

@[simp] theorem setPlan_same (s : State) (k : SlotId) (p : Option Plan) : (s.setPlan k p).plans[k] = p := by
  simp [State.setPlan]

theorem setPlan_other (s : State) (k : SlotId) (p : Option Plan) (j : SlotId) (h : j ≠ k) :
    (s.setPlan k p).plans[j] = s.plans[j] := by
  have : k.val ≠ j.val := fun e => h (Fin.ext e.symm)
  simp [State.setPlan, this]

@[simp] theorem setClaim_same (s : State) (e : Port) (c : Option Byte) : (s.setClaim e c).claims[e] = c := by
  simp [State.setClaim]

theorem setClaim_other (s : State) (e : Port) (c : Option Byte) (j : Port) (h : j ≠ e) :
    (s.setClaim e c).claims[j] = s.claims[j] := by
  have : e.val ≠ j.val := fun e => h (Fin.ext e.symm)
  simp [State.setClaim, this]

@[simp] theorem setCond_same (s : State) (c : CondId) (k : Condition) : (s.setCond c k).conds[c] = k := by
  simp [State.setCond]

theorem setCond_other (s : State) (c : CondId) (k : Condition) (j : CondId) (h : j ≠ c) :
    (s.setCond c k).conds[j] = s.conds[j] := by
  have : c.val ≠ j.val := fun e => h (Fin.ext e.symm)
  simp [State.setCond, this]

@[simp] theorem setSense_same (s : State) (n : SenseId) (k : Sense) : (s.setSense n k).senses[n] = k := by
  simp [State.setSense]

theorem setSense_other (s : State) (n : SenseId) (k : Sense) (j : SenseId) (h : j ≠ n) :
    (s.setSense n k).senses[j] = s.senses[j] := by
  have : n.val ≠ j.val := fun e => h (Fin.ext e.symm)
  simp [State.setSense, this]

end Sys2Proof.Machine
end

