-- ==== Sys2Proof/Laws/Ops.lean ====
section
/-! SUPPORT. What the shared operations do, said once: saturating counts, the order a free choice gives,
notices, conditions, and the frame of one event. -/

namespace Sys2Proof.Machine

/-! ### Saturating counts -/

/-- A saturating count at its greatest value stays there, and else goes up by one. -/
theorem satInc_toNat {w : Nat} (x : BitVec w) :
    (satInc x).toNat = if x = BitVec.allOnes w then x.toNat else x.toNat + 1 := by
  unfold satInc
  split
  · rfl
  · rename_i hx
    have hlt := x.isLt
    have hne : x.toNat ≠ 2 ^ w - 1 := fun h => hx (BitVec.eq_of_toNat_eq (by simp [h]))
    have h0 : 0 < 2 ^ w := Nat.two_pow_pos w
    have hb : x.toNat + 1 < 2 ^ w := by omega
    have h1 : 1 % 2 ^ w = 1 := Nat.mod_eq_of_lt (by omega)
    simp [BitVec.toNat_add, h1, Nat.mod_eq_of_lt hb]

/-- A count that has counted is not 0 (R140). -/
theorem satInc_ne_zero {w : Nat} (hw : 0 < w) (x : BitVec w) : satInc x ≠ 0 := by
  intro h
  have ht := satInc_toNat x
  rw [h] at ht
  have h1 : 1 < 2 ^ w := Nat.one_lt_two_pow (by omega)
  split at ht
  · rename_i hx
    subst hx
    simp at ht
    omega
  · simp at ht

/-! ### An order drawn from the free choice -/

/-- The order is one of the list's own: nothing is left out and nothing is added. -/
theorem arrange_perm {α : Type} (n : Nat) (xs : List α) (d : Nat) : (arrange n xs d).1.Perm xs := by
  induction n generalizing xs d with
  | zero => exact List.Perm.refl _
  | succ n ih =>
    match xs with
    | [] => exact List.Perm.refl _
    | [x] => exact List.Perm.refl _
    | x :: y :: zs =>
      have hk : Config.freeChoice d % (x :: y :: zs).length < (x :: y :: zs).length :=
        Nat.mod_lt _ (by simp)
      show (((x :: y :: zs)[Config.freeChoice d % (x :: y :: zs).length]?).toList
          ++ (arrange n ((x :: y :: zs).eraseIdx (Config.freeChoice d % (x :: y :: zs).length))
              (d + 1)).1).Perm _
      rw [List.getElem?_eq_getElem hk]
      refine List.Perm.trans (List.Perm.append_left _ (ih _ _)) ?_
      simpa using List.getElem_cons_eraseIdx_perm hk

/-- Things done in an order that the free choice gives are done one after the other, each once, after the draws. -/
theorem State.inSomeOrder_order {α : Type} (s : State) (xs : List α) (f : α → State → State) :
    ∃ (l : List α) (draws : Nat), l.Perm xs
      ∧ s.inSomeOrder xs f = l.foldl (fun t x => f x t) (s.setDraws draws) :=
  ⟨_, _, arrange_perm xs.length xs s.draws, rfl⟩

/-- A property that each step keeps is kept whatever the order. -/
theorem State.inSomeOrder_keeps {α : Type} (P : State → Prop) (s : State) (xs : List α)
    (f : α → State → State) (hd : ∀ t n, P t → P (t.setDraws n))
    (hf : ∀ x ∈ xs, ∀ t, P t → P (f x t)) (h : P s) : P (s.inSomeOrder xs f) := by
  unfold State.inSomeOrder
  have hp := arrange_perm xs.length xs s.draws
  generalize arrange xs.length xs s.draws = r at hp
  have aux : ∀ (l : List α), (∀ x ∈ l, x ∈ xs) → ∀ t, P t → P (l.foldl (fun t x => f x t) t) := by
    intro l
    induction l with
    | nil => intro _ t ht; exact ht
    | cons x l ih =>
      intro hm t ht
      exact ih (fun y hy => hm y (List.mem_cons_of_mem _ hy)) _ (hf x (hm x List.mem_cons_self) t ht)
  exact aux r.1 (fun x hx => hp.mem_iff.mp hx) _ (hd _ _ h)

/-- A property that everything the blocks do keeps is kept whatever the order. -/
theorem State.goOn_keeps (P : State → Prop) (hd : ∀ t n, P t → P (t.setDraws n)) (n : Nat)
    (blocks : List (List (State → State))) (hf : ∀ b ∈ blocks, ∀ f ∈ b, ∀ t, P t → P (f t)) (s : State)
    (h : P s) : P (State.goOn n blocks s) := by
  induction n generalizing blocks s with
  | zero => exact h
  | succ n ih =>
    unfold State.goOn
    split
    · exact h
    · rename_i k draws _
      split
      · rename_i f rest hb
        have hm := List.mem_of_getElem? hb
        refine ih _ (fun b hbm g hg t ht => ?_) _ (hf _ hm f List.mem_cons_self _ (hd _ _ h))
        rcases List.mem_or_eq_of_mem_set hbm with hb' | rfl
        · exact hf b hb' g hg t ht
        · exact hf _ hm g (List.mem_cons_of_mem _ hg) t ht
      · exact h

theorem State.together_keeps (P : State → Prop) (hd : ∀ t n, P t → P (t.setDraws n)) (s : State)
    (blocks : List (List (State → State))) (hf : ∀ b ∈ blocks, ∀ f ∈ b, ∀ t, P t → P (f t)) (h : P s) :
    P (s.together blocks) := State.goOn_keeps P hd _ blocks hf s h

/-- With nothing to do, nothing is done. -/
theorem State.together_nil (s : State) : s.together [] = s := rfl

/-- One thing to do is done. -/
theorem State.together_one (s : State) (f : State → State) : s.together [[f]] = f s := rfl

/-- Where only the second of two blocks has something to do, it does it. -/
theorem State.together_second (s : State) (fs : List (State → State)) :
    s.together [[], fs] = fs.foldl (fun t f => f t) s := by
  unfold State.together
  simp only [List.flatten_cons, List.flatten_nil, List.nil_append, List.append_nil]
  induction fs generalizing s with
  | nil => rfl
  | cons f fs ih =>
    show State.goOn (fs.length + 1) _ s = _
    exact ih (f s)

/-! ### Notices (R148, R149, R151) -/

theorem NoticeQueue.offer_room (q : NoticeQueue) (t : Word32) (b : NoticeBody)
    (h : q.entries.length < 32) :
    q.offer t b
      = { q with
          entries := q.entries ++ [{ number := q.next, time := t, body := b }], next := q.next + 1 } := by
  simp [NoticeQueue.offer, NoticeQueue.hasRoom, h]

theorem NoticeQueue.offer_full (q : NoticeQueue) (t : Word32) (b : NoticeBody)
    (h : 32 ≤ q.entries.length) :
    q.offer t b = { q with lost := satInc q.lost, firstLoss := some (q.firstLoss.getD t) } := by
  simp [NoticeQueue.offer, NoticeQueue.hasRoom, Nat.not_lt.mpr h]

theorem NoticeQueue.offer_length (q : NoticeQueue) (t : Word32) (b : NoticeBody)
    (h : q.entries.length ≤ 32) : (q.offer t b).entries.length ≤ 32 := by
  by_cases hr : q.entries.length < 32
  · rw [q.offer_room t b hr]; simp; omega
  · rw [q.offer_full t b (by omega)]; exact h

/-! ### The arbiter (R166) -/

theorem State.startMessage_touches (s : State) (m : Message) (r : Bool) :
    s.startMessage m r = { s with link := s.link.withSending (s.startMessage m r).link } := rfl

theorem State.departNotice_touches (s : State) (n : Notice) (rest : List Notice) :
    ∃ cs ns, s.departNotice n rest = { s with conds := cs, notices := ns } := by
  unfold State.departNotice
  dsimp only
  split <;> first | exact ⟨s.conds, _, rfl⟩ | exact ⟨_, _, rfl⟩

/-- The arbiter reaches pending marks, the notice queue, the reply buffer and MTX. -/
theorem State.arbitrate_touches (s : State) :
    ∃ cs ns l, s.arbitrate = { s with conds := cs, notices := ns, link := s.link.withSending l } := by
  unfold State.arbitrate
  split
  · split
    · rename_i r rest _
      exact ⟨s.conds, s.notices, ((s.setLink { s.link with refusals := rest }).startMessage r.message r.restart).link,
        rfl⟩
    · split
      · rename_i r rest _
        exact ⟨s.conds, s.notices,
          ((s.setLink { s.link with executed := rest }).startMessage r.message r.restart).link, rfl⟩
      · split
        · rename_i n rest _
          obtain ⟨cs, ns, h⟩ := s.departNotice_touches n rest
          rw [h]
          exact ⟨cs, ns, (s.startMessage (n.message s) false).link, rfl⟩
        · exact ⟨s.conds, s.notices, s.link, rfl⟩
  · exact ⟨s.conds, s.notices, s.link, rfl⟩

/-- With a message on MTX the arbiter does nothing (R166). -/
theorem State.arbitrate_busy (s : State) (h : s.link.mtx.isSome) : s.arbitrate = s := by
  unfold State.arbitrate
  split
  · rename_i hm; simp [hm] at h
  · rfl

/-- With MTX idle and no reply waiting the oldest notice starts (R166). -/
theorem State.arbitrate_notice (s : State) (n : Notice) (rest : List Notice) (hp : s.phase = .run)
    (hm : s.link.mtx = none) (hr : s.link.refusals = []) (hx : s.link.executed = [])
    (hn : s.notices.entries = n :: rest) :
    s.arbitrate = (s.departNotice n rest).startMessage (n.message s) false := by
  unfold State.arbitrate
  simp only [hp, hm, hr, hx, hn]

/-- During a reset the arbiter does nothing (R167). -/
theorem State.arbitrate_in_reset (s : State) (h : s.phase ≠ .run) : s.arbitrate = s := by
  unfold State.arbitrate
  split
  · rename_i hp _; exact absurd hp h
  · rfl

/-- The departure of a notice changes no more of a condition than its pending mark (R148). -/
theorem State.departNotice_conds (s : State) (n : Notice) (rest : List Notice) (c : CondId) :
    (s.departNotice n rest).conds[c]
      = { s.conds[c] with pending := (s.departNotice n rest).conds[c].pending } := by
  unfold State.departNotice
  dsimp only
  split
  case h_1 d _ =>
    by_cases h : c = d
    · subst h; simp
    · have hc := setCond_other s d { s.conds[d] with pending := false } c h
      simp only [setNotices_conds, hc]
  all_goals rfl

/-- The arbiter changes no more of a condition than its pending mark (R148, R150). -/
theorem State.arbitrate_conds (s : State) (c : CondId) :
    s.arbitrate.conds[c] = { s.conds[c] with pending := s.arbitrate.conds[c].pending } := by
  unfold State.arbitrate
  split
  · split
    · rfl
    · split
      · rfl
      · split
        · rename_i n rest _
          exact s.departNotice_conds n rest c
        · rfl
  · rfl

/-! ### Offering a notice (R149, R166) -/

/-- With a message on MTX a notice offered waits in the queue (R166). -/
theorem State.notify_busy (s : State) (b : NoticeBody) (h : s.link.mtx.isSome) :
    s.notify b = { s with notices := s.notices.offer s.timeBase b } :=
  State.arbitrate_busy _ h

theorem State.notify_touches (s : State) (b : NoticeBody) :
    ∃ cs ns l, s.notify b = { s with conds := cs, notices := ns, link := s.link.withSending l } := by
  obtain ⟨cs, ns, l, h⟩ := (s.setNotices (s.notices.offer s.timeBase b)).arbitrate_touches
  exact ⟨cs, ns, l, h⟩

theorem State.notify_conds (s : State) (b : NoticeBody) (c : CondId) :
    (s.notify b).conds[c] = { s.conds[c] with pending := (s.notify b).conds[c].pending } :=
  State.arbitrate_conds _ c

/-! ### Conditions (R140, R141) -/

theorem State.occur_touches (s : State) (c : CondId) :
    ∃ cs ns l, s.occur c = { s with conds := cs, notices := ns, link := s.link.withSending l } := by
  unfold State.occur
  dsimp only
  split
  · obtain ⟨cs, ns, l, h⟩ := State.notify_touches (s.setCond c _) (.condition c)
    exact ⟨cs, ns, l, h⟩
  · exact ⟨_, s.notices, s.link, rfl⟩

/-- After an occurrence the latch is set and the count one higher, unless at 255 (R140). -/
theorem State.occur_same (s : State) (c : CondId) :
    (s.occur c).conds[c].latch = true ∧ (s.occur c).conds[c].count = satInc s.conds[c].count := by
  unfold State.occur
  dsimp only
  split
  · rw [State.notify_conds]
    simp [Condition.occurred]
  · simp [Condition.occurred]

/-- An occurrence changes no more of another condition than its pending mark, whose notice may start (R140,
R166). -/
theorem State.occur_other (s : State) (c d : CondId) (h : d ≠ c) :
    (s.occur c).conds[d] = { s.conds[d] with pending := (s.occur c).conds[d].pending } := by
  unfold State.occur
  dsimp only
  split
  · rw [State.notify_conds, setCond_other s c _ d h]
  · rw [setCond_other s c _ d h]

/-! ### The frame of one event -/

theorem State.event_taken (s : State) (can : Bool) (effect : State → State) (hp : s.phase = .run)
    (hc : can = true) : s.event can effect = (effect s).arbitrate := by
  simp [State.event, hp, hc]

theorem State.event_not_offered (s : State) (can : Bool) (effect : State → State) (hc : can = false) :
    s.event can effect = s := by simp [State.event, hc]

theorem State.event_in_reset (s : State) (can : Bool) (effect : State → State) (hp : s.phase ≠ .run) :
    s.event can effect = s := by simp [State.event, hp]

/-- The executor's event, when it can take the head of the intake queue (R163). -/
theorem State.execute_taken (s : State) (accepts : Byte → Bool)
    (body : Message → State → Answer × State) (m : Message) (rest : List Message)
    (hp : s.phase = .run) (hr : s.link.restartPending = false) (hf : s.link.replies < 6)
    (hi : s.link.intake = m :: rest) (hk : accepts m.kind = true) :
    s.execute accepts body
      = ((body m (s.setLink { s.link with intake := rest })).2.placeReply m
          (body m (s.setLink { s.link with intake := rest })).1).arbitrate := by
  simp [State.execute, State.executorHead, Link.entryFree, hf, hr, hi, hk, State.event, hp,
    State.runRequest]

/-- The executor stalls while it cannot take the head (R163). -/
theorem State.execute_stalls (s : State) (accepts : Byte → Bool)
    (body : Message → State → Answer × State) (h : s.executorHead = none) :
    s.execute accepts body = s := by
  simp [State.execute, h]

end Sys2Proof.Machine
end

