-- ==== Sys2Proof/Laws/Notices.lean ====
section
/-! SUPPORT. What the notices of an event leave of the link and of the conditions: a relation that composes, said once
of every operation that offers a notice (R141, R148, R166). -/

namespace Sys2Proof.Machine

theorem State.NoticesOnly.trans {occurred : CondId → Prop} {s t u : State} (h : s.NoticesOnly t occurred)
    (k : t.NoticesOnly u occurred) : s.NoticesOnly u occurred := by
  obtain ⟨hp, hl, hc, hr, hb⟩ := h
  obtain ⟨kp, kl, kc, kr, kb⟩ := k
  refine ⟨kp.trans hp, ?_, fun c n => by rw [kc c n, hc c n], fun p a => ?_, fun p => ?_⟩
  · rw [kl, hl]
    rfl
  · obtain ⟨a1, a2, a3⟩ := hr p a
    obtain ⟨b1, b2, b3⟩ := kr (hp.trans p) a1
    exact ⟨b1, by rw [b2, a2], fun c n => by rw [b3 c n, a3 c n]⟩
  · obtain ⟨a1, a2⟩ := hb p
    obtain ⟨b1, b2⟩ := kb (by rw [a1, hp]; exact p)
    exact ⟨b1.trans a1, fun c n => by rw [b2 c n, a2 c n]⟩

/-- An operation that leaves phase, link and notices, and the conditions that have not occurred. -/
theorem State.NoticesOnly.of_eq {occurred : CondId → Prop} {s t : State} (hp : t.phase = s.phase)
    (hl : t.link = s.link) (hn : t.notices = s.notices)
    (hc : ∀ c : CondId, ¬ occurred c → t.conds[c] = s.conds[c]) : s.NoticesOnly t occurred := by
  refine ⟨hp, by rw [hl]; rfl, fun c n => by rw [hc c n], fun _ a => ⟨?_, by rw [hl], hc⟩, fun _ => ⟨hl, hc⟩⟩
  unfold State.ArbiterAtRest at a ⊢
  rw [hl, hn]
  exact a

/-- More may have occurred. -/
theorem State.NoticesOnly.mono {few many : CondId → Prop} {s t : State} (h : s.NoticesOnly t few)
    (hm : ∀ c, few c → many c) : s.NoticesOnly t many := by
  obtain ⟨hp, hl, hc, hr, hb⟩ := h
  exact ⟨hp, hl, fun c n => hc c (n ∘ hm c),
    fun p a => ⟨(hr p a).1, (hr p a).2.1, fun c n => (hr p a).2.2 c (n ∘ hm c)⟩,
    fun p => ⟨(hb p).1, fun c n => (hb p).2 c (n ∘ hm c)⟩⟩

theorem State.NoticesOnly.refl (occurred : CondId → Prop) (s : State) : s.NoticesOnly s occurred :=
  .of_eq rfl rfl rfl fun _ _ => rfl

/-- A notice that alone waits on an idle MTX starts at once, and takes no mark but its own condition's (R148,
R166). -/
theorem State.notify_idle (s : State) (b : NoticeBody) (hp : s.phase = .run) (hm : s.link.mtx = none)
    (hr : s.link.refusals = []) (hx : s.link.executed = []) (hn : s.notices.entries = []) :
    (s.notify b).link.mtx.isSome ∧ (s.notify b).link = { s.link with mtx := (s.notify b).link.mtx }
      ∧ (s.notify b).notices.entries = []
      ∧ ∀ c : CondId, b ≠ .condition c → (s.notify b).conds[c] = s.conds[c] := by
  have hroom : s.notices.entries.length < 32 := by simp [hn]
  have e := State.arbitrate_notice (s.setNotices (s.notices.offer s.timeBase b))
    { number := s.notices.next, time := s.timeBase, body := b } [] hp hm hr hx
    (by simp [NoticeQueue.offer_room _ _ _ hroom, hn])
  unfold State.notify
  rw [e]
  unfold State.departNotice State.startMessage
  cases b
  case condition d =>
    refine ⟨rfl, rfl, ?_, fun c hc => ?_⟩
    · simp [NoticeQueue.afterDeparture]
      split <;> simp
    · have hd := setCond_other s d { s.conds[d] with pending := false } c fun h => hc (by rw [h])
      exact hd
  all_goals
    refine ⟨rfl, rfl, ?_, fun c _ => rfl⟩
    simp [NoticeQueue.afterDeparture]
    split <;> simp

theorem State.notify_only (occurred : CondId → Prop) (s : State) (b : NoticeBody)
    (hb : ∀ c, b = .condition c → occurred c) : s.NoticesOnly (s.notify b) occurred := by
  obtain ⟨cs, ns, l, h⟩ := s.notify_touches b
  refine ⟨by rw [h], by rw [h]; rfl, fun c _ => s.notify_conds b c, fun hp a => ?_, fun hp => ?_⟩
  · cases hm : s.link.mtx with
    | some m =>
      have hs : s.link.mtx.isSome := by rw [hm]; rfl
      rw [s.notify_busy b hs]
      exact ⟨.inl hs, rfl, fun _ _ => rfl⟩
    | none =>
      rcases a with a | ⟨hr, hx, hn⟩
      · rw [hm] at a; cases a
      · obtain ⟨x1, x2, _, x4⟩ := s.notify_idle b hp hm hr hx hn
        exact ⟨.inl x1, x2, fun c n => x4 c fun e => n (hb c e)⟩
  · have e : s.notify b = s.setNotices (s.notices.offer s.timeBase b) := by
      rcases hp with hp | hp
      · exact s.notify_busy b hp
      · exact State.arbitrate_in_reset _ hp
    rw [e]
    exact ⟨rfl, fun _ _ => rfl⟩

theorem State.occur_only (occurred : CondId → Prop) (s : State) (c : CondId) (hc : occurred c) :
    s.NoticesOnly (s.occur c) occurred := by
  have hs (k : Condition) : s.NoticesOnly (s.setCond c k) occurred :=
    .of_eq rfl rfl rfl fun d n => setCond_other s c k d fun e => n (e ▸ hc)
  unfold State.occur
  dsimp only
  split
  · refine (hs _).trans (State.notify_only occurred _ _ fun d h => ?_)
    cases h
    exact hc
  · exact hs _

theorem State.together_only (occurred : CondId → Prop) (s : State) (blocks : List (List (State → State)))
    (hf : ∀ b ∈ blocks, ∀ f ∈ b, ∀ t : State, t.NoticesOnly (f t) occurred) :
    s.NoticesOnly (s.together blocks) occurred :=
  State.together_keeps (fun t => s.NoticesOnly t occurred)
    (fun _ _ h => h.trans (.of_eq rfl rfl rfl fun _ _ => rfl)) s blocks
    (fun b hb f hm t h => h.trans (hf b hb f hm t)) (.refl occurred s)

end Sys2Proof.Machine
end

