-- ==== Sys2Proof/Laws/Touch.lean ====
section
/-! SUPPORT. Which parts of the state each shared operation can touch: everything else is as it was. -/

namespace Sys2Proof.Machine

/-! ### Injection -/

/-- No condition has occurred, one of a guard has, and one of a line or a guard (section 8.1). -/
def noneOccurred (_ : CondId) : Prop := False
def guardsOccurred (c : CondId) : Prop := 20 ≤ c.val ∧ c.val < 36
def linesOccurred (c : CondId) : Prop := 4 ≤ c.val ∧ c.val < 36

theorem guardCond_occurred (e : Port) : guardsOccurred (guardCond e) := by
  have := e.isLt
  exact ⟨Nat.le_add_right 20 _, by show 20 + e.val < 36; omega⟩

theorem lineCond_occurred (p : Port) : linesOccurred (lineCond p) := by
  have := p.isLt
  exact ⟨Nat.le_add_right 4 _, by show 4 + p.val < 36; omega⟩

theorem linesOccurred_of_guards (c : CondId) (h : guardsOccurred c) : linesOccurred c := by
  unfold guardsOccurred at h
  unfold linesOccurred
  omega

/-- What a report to the host can touch beside the injection pool: the notice queue, pending marks, the reply buffer
and MTX (R149, R166). -/
def State.PoolReach (s t : State) : Prop :=
  (∃ p cs ns l, t = { s with pool := p, conds := cs, notices := ns, link := s.link.withSending l })
  ∧ s.NoticesOnly t noneOccurred

theorem State.PoolReach.refl (s : State) : s.PoolReach s :=
  ⟨⟨s.pool, s.conds, s.notices, s.link, rfl⟩, .of_eq rfl rfl rfl fun _ _ => rfl⟩

theorem State.setPool_pool (s : State) (p : Pool) : s.PoolReach (s.setPool p) :=
  ⟨⟨p, s.conds, s.notices, s.link, rfl⟩, .of_eq rfl rfl rfl fun _ _ => rfl⟩

theorem State.notify_pool (s : State) (p : Pool) (b : NoticeBody) (hb : ∀ c, b ≠ .condition c) : s.PoolReach ((s.setPool p).notify b) := by
  have hn : s.NoticesOnly ((s.setPool p).notify b) noneOccurred :=
    (State.NoticesOnly.of_eq rfl rfl rfl fun _ _ => rfl).trans ((s.setPool p).notify_only noneOccurred b hb)
  obtain ⟨cs, ns, l, h⟩ := (s.setPool p).notify_touches b
  exact ⟨⟨p, cs, ns, l, h⟩, hn⟩

theorem State.injectDiscard_touches (s : State) (e : Port) : s.PoolReach (s.injectDiscard e) := by
  unfold State.injectDiscard
  dsimp only
  split
  · exact s.setPool_pool _
  · exact s.notify_pool _ _ fun _ => nofun

theorem State.injectCut_touches (s : State) (e : Port) : s.PoolReach (s.injectCut e) := by
  unfold State.injectCut
  dsimp only
  split
  · exact .refl s
  · exact s.notify_pool _ _ fun _ => nofun

theorem State.injectSent_touches (s : State) (e : Port) : s.PoolReach (s.injectSent e) := by
  unfold State.injectSent
  dsimp only
  split
  · exact .refl s
  · split
    · exact s.notify_pool _ _ fun _ => nofun
    · exact s.setPool_pool _

/-! ### Selectors -/

/-- What a change of source can touch: selectors, guard records, the pool, notices with their pending marks, what the
arbiter starts, and the count of draws. -/
def State.SelectorReach (s t : State) : Prop :=
  (∃ es gs p cs ns l d,
    t = { s with
      egresses := es, guards := gs, pool := p, conds := cs, notices := ns, link := s.link.withSending l, draws := d })
  ∧ s.NoticesOnly t noneOccurred

theorem State.SelectorReach.refl (s : State) : s.SelectorReach s :=
  ⟨⟨s.egresses, s.guards, s.pool, s.conds, s.notices, s.link, s.draws, rfl⟩, .of_eq rfl rfl rfl fun _ _ => rfl⟩

theorem State.SelectorReach.trans {s t u : State} (h : s.SelectorReach t) (k : t.SelectorReach u) :
    s.SelectorReach u := by
  refine ⟨?_, h.2.trans k.2⟩
  obtain ⟨⟨_, _, _, _, _, _, _, rfl⟩, _⟩ := h
  obtain ⟨⟨es, gs, p, cs, ns, l, d, rfl⟩, _⟩ := k
  exact ⟨es, gs, p, cs, ns, l, d, rfl⟩

theorem State.PoolReach.selector {s t : State} (h : s.PoolReach t) : s.SelectorReach t := by
  obtain ⟨⟨p, cs, ns, l, h⟩, hc⟩ := h
  exact ⟨⟨s.egresses, s.guards, p, cs, ns, l, s.draws, h⟩, hc⟩

theorem State.setEgress_selector (s : State) (e : Port) (g : Egress) : s.SelectorReach (s.setEgress e g) :=
  ⟨⟨_, s.guards, s.pool, s.conds, s.notices, s.link, s.draws, rfl⟩, .of_eq rfl rfl rfl fun _ _ => rfl⟩

theorem State.setGuard_selector (s : State) (e : Port) (r : Option Guard) : s.SelectorReach (s.setGuard e r) :=
  ⟨⟨s.egresses, _, s.pool, s.conds, s.notices, s.link, s.draws, rfl⟩, .of_eq rfl rfl rfl fun _ _ => rfl⟩

theorem State.setPool_selector (s : State) (p : Pool) : s.SelectorReach (s.setPool p) := (s.setPool_pool p).selector

theorem State.setDraws_selector (s : State) (n : Nat) : s.SelectorReach (s.setDraws n) :=
  ⟨⟨s.egresses, s.guards, s.pool, s.conds, s.notices, s.link, _, rfl⟩, .of_eq rfl rfl rfl fun _ _ => rfl⟩

theorem State.notify_selector (s : State) (b : NoticeBody) (hb : ∀ c, b ≠ .condition c) :
    s.SelectorReach (s.notify b) :=
  (s.notify_pool s.pool b hb).selector

theorem State.injectDiscard_selector (s : State) (e : Port) : s.SelectorReach (s.injectDiscard e) :=
  (s.injectDiscard_touches e).selector

theorem State.injectCut_selector (s : State) (e : Port) : s.SelectorReach (s.injectCut e) :=
  (s.injectCut_touches e).selector

theorem State.injectSent_selector (s : State) (e : Port) : s.SelectorReach (s.injectSent e) :=
  (s.injectSent_touches e).selector

theorem State.together_selector (s : State) (blocks : List (List (State → State)))
    (hf : ∀ b ∈ blocks, ∀ f ∈ b, ∀ t : State, t.SelectorReach (f t)) : s.SelectorReach (s.together blocks) :=
  State.together_keeps (fun t => s.SelectorReach t) (fun t n h => h.trans (t.setDraws_selector n)) s blocks
    (fun b hb f hm t h => h.trans (hf b hb f hm t)) (.refl s)

theorem State.guardSettled_selector (s : State) (e : Port) (i : Nat) (t : Source) (o : Settlement)
    (d : Bool) : s.SelectorReach (s.guardSettled e i t o d) := by
  unfold State.guardSettled
  split
  · exact .refl s
  · dsimp only
    split
    · exact s.setGuard_selector _ _
    · exact .refl s

theorem State.settle_selector (s : State) (e : Port) (ch : Change) (o : Settlement) :
    s.SelectorReach (s.settle e ch o) := by
  unfold State.settle
  dsimp only
  split
  · split
    · exact s.notify_selector _ fun _ => nofun
    · exact .refl s
  · exact s.setEgress_selector _ _
  · exact s.guardSettled_selector _ _ _ _ _

theorem State.tryJoin_selector (s : State) (e : Port) : s.SelectorReach (s.tryJoin e) := by
  unfold State.tryJoin
  dsimp only
  split
  · exact .refl s
  · split
    · exact (s.setEgress_selector _ _).trans (State.settle_selector _ _ _ _)
    · exact .refl s

theorem State.leaveFrame_selector (s : State) (e : Port) (ch : Change) :
    s.SelectorReach (s.leaveFrame e ch) := by
  unfold State.leaveFrame
  dsimp only
  split
  · exact (s.setEgress_selector _ _).trans (State.settle_selector _ _ _ _)
  · exact (s.setEgress_selector _ _).trans (State.tryJoin_selector _ _)

theorem State.cutLeave_selector (s : State) (e : Port) (ch : Change) :
    s.SelectorReach (s.cutLeave e ch) :=
  (s.setEgress_selector _ _).trans (State.leaveFrame_selector _ _ _)

theorem State.takeIdle_selector (s : State) (e : Port) (ch : Change) :
    s.SelectorReach (s.takeIdle e ch) := by
  unfold State.takeIdle
  dsimp only
  split
  · exact s.settle_selector _ _ _
  · split
    · split
      · exact s.cutLeave_selector _ _
      · exact s.setEgress_selector _ _
    · exact s.leaveFrame_selector _ _

theorem State.putReleased_selector (s : State) (e : Port) (g : Egress) :
    s.SelectorReach (s.putReleased e g) := by
  unfold State.putReleased
  dsimp only
  split
  · split
    · exact (s.setEgress_selector _ _).trans (State.setPool_selector _ _)
    · exact s.setEgress_selector _ _
  · exact s.setEgress_selector _ _

theorem State.takeDraining_selector (s : State) (e : Port) (ch : Change) :
    s.SelectorReach (s.takeDraining e ch) := by
  unfold State.takeDraining
  dsimp only
  split
  · exact (s.putReleased_selector _ _).trans (State.settle_selector _ _ _ _)
  · split
    · exact s.cutLeave_selector _ _
    · exact s.putReleased_selector _ _

theorem State.actOn_selector (s : State) (e : Port) (ch : Change) : s.SelectorReach (s.actOn e ch) := by
  unfold State.actOn
  split
  · exact s.takeIdle_selector _ _
  · exact s.takeIdle_selector _ _
  · exact s.takeDraining_selector _ _
  · exact s.leaveFrame_selector _ _

theorem Egress.injectionPart_selector (g : Egress) (e : Port) (ch : Change) :
    ∀ f ∈ g.injectionPart e ch, ∀ t : State, t.SelectorReach (f t) := by
  intro f hf t
  unfold Egress.injectionPart at hf
  split at hf
  · rcases List.mem_cons.mp hf with rfl | hf
    · exact t.injectDiscard_selector e
    · split at hf
      · rw [List.mem_singleton.mp hf]; exact t.injectCut_selector e
      · exact absurd hf List.not_mem_nil
  · exact absurd hf List.not_mem_nil

theorem Egress.selectorPart_selector (g : Egress) (e : Port) (ch : Change) :
    ∀ f ∈ g.selectorPart e ch, ∀ t : State, t.SelectorReach (f t) := by
  intro f hf t
  rcases List.mem_append.mp hf with hf | hf
  · obtain ⟨old, _, rfl⟩ := List.mem_map.mp hf
    exact t.settle_selector _ _ _
  · rw [List.mem_singleton.mp hf]; exact t.actOn_selector e ch

/-- Taking a change touches selectors, guard records, the injection pool, the notice queue and the count of
draws. -/
theorem State.takeChange_selector (s : State) (e : Port) (ch : Change) :
    s.SelectorReach (s.takeChange e ch) :=
  s.together_selector _ fun b hb => by
    rcases List.mem_pair.mp hb with rfl | rfl
    · exact Egress.injectionPart_selector _ e ch
    · exact Egress.selectorPart_selector _ e ch

theorem State.endDrain_selector (s : State) (e : Port) (c : Character) :
    s.SelectorReach (s.endDrain e c) := by
  unfold State.endDrain
  dsimp only
  split
  · exact .refl s
  · split
    · exact (s.setEgress_selector _ _).trans
        (State.together_selector _ _ fun b hb => by
          rcases List.mem_pair.mp hb with rfl | rfl <;> intro f hf t <;> rw [List.mem_singleton.mp hf]
          · exact t.injectSent_selector e
          · exact t.leaveFrame_selector e _)
    · exact (s.setEgress_selector _ _).trans (State.leaveFrame_selector _ _ _)

theorem State.expireDeadline_selector (s : State) (e : Port) : s.SelectorReach (s.expireDeadline e) := by
  unfold State.expireDeadline
  split
  · exact .refl s
  · dsimp only
    split
    · refine s.together_selector _ fun b hb => ?_
      rcases List.mem_pair.mp hb with rfl | rfl <;> intro f hf t <;> rw [List.mem_singleton.mp hf]
      · exact t.injectCut_selector e
      · exact t.cutLeave_selector e _
    · exact s.cutLeave_selector e _

/-! ### Guards -/

/-- What a guard's own decision can touch: selectors, guard records, the pool, conditions, notices, what the arbiter
starts, and the count of draws. -/
def State.GuardReach (s t : State) : Prop :=
  (∃ es gs p cs ns l d,
    t = { s with
      egresses := es, guards := gs, pool := p, conds := cs, notices := ns, link := s.link.withSending l, draws := d })
  ∧ s.NoticesOnly t guardsOccurred

theorem State.SelectorReach.guard {s t : State} (h : s.SelectorReach t) : s.GuardReach t :=
  ⟨h.1, h.2.mono fun _ => False.elim⟩

theorem State.GuardReach.refl (s : State) : s.GuardReach s := (State.SelectorReach.refl s).guard

theorem State.GuardReach.trans {s t u : State} (h : s.GuardReach t) (k : t.GuardReach u) :
    s.GuardReach u := by
  refine ⟨?_, h.2.trans k.2⟩
  obtain ⟨⟨_, _, _, _, _, _, _, rfl⟩, _⟩ := h
  obtain ⟨⟨es, gs, p, cs, ns, l, d, rfl⟩, _⟩ := k
  exact ⟨es, gs, p, cs, ns, l, d, rfl⟩

theorem State.setGuard_reach (s : State) (e : Port) (r : Option Guard) : s.GuardReach (s.setGuard e r) :=
  (s.setGuard_selector e r).guard

theorem State.guardTo_reach (s : State) (e : Port) (g : GuardState) : s.GuardReach (s.guardTo e g) :=
  s.setGuard_reach e _

theorem State.occur_reach (s : State) (e : Port) : s.GuardReach (s.occur (guardCond e)) := by
  obtain ⟨cs, ns, l, h⟩ := s.occur_touches (guardCond e)
  exact ⟨⟨s.egresses, s.guards, s.pool, cs, ns, l, s.draws, h⟩, s.occur_only _ _ (guardCond_occurred e)⟩

theorem State.takeChange_reach (s : State) (e : Port) (ch : Change) :
    s.GuardReach (s.takeChange e ch) := (s.takeChange_selector e ch).guard

theorem State.setDraws_reach (s : State) (n : Nat) : s.GuardReach (s.setDraws n) := (s.setDraws_selector n).guard

theorem State.together_reach (s : State) (blocks : List (List (State → State)))
    (hf : ∀ b ∈ blocks, ∀ f ∈ b, ∀ t : State, t.GuardReach (f t)) : s.GuardReach (s.together blocks) :=
  State.together_keeps (fun t => s.GuardReach t) (fun t n h => h.trans (t.setDraws_reach n)) s blocks
    (fun b hb f hm t h => h.trans (hf b hb f hm t)) (.refl s)

theorem State.guardParts_reach (s : State) (e : Port) (m : GuardMove) :
    ∀ b ∈ s.guardParts e m, ∀ f ∈ b, ∀ t : State, t.GuardReach (f t) := by
  intro b hb f hf t
  unfold State.guardParts at hb
  split at hb
  · split at hb
    · exact absurd hb List.not_mem_nil
    · rw [List.mem_singleton.mp hb] at hf
      rw [List.mem_singleton.mp hf]
      exact t.guardTo_reach e _
    · simp only [List.mem_cons, List.not_mem_nil, or_false] at hb
      rcases hb with rfl | rfl | rfl
      · rcases List.mem_pair.mp hf with rfl | rfl
        · exact t.guardTo_reach e _
        · exact t.occur_reach _
      · exact (Egress.injectionPart_selector _ e _ f hf t).guard
      · exact (Egress.selectorPart_selector _ e _ f hf t).guard
  · exact absurd hb List.not_mem_nil

/-- A move of a guard touches no more than its own egress's selector and guard record, the pool, conditions,
notices, and the count of draws. -/
theorem State.guardMoves_reach (s : State) (e : Port) (m : GuardMove) : s.GuardReach (s.guardMoves e m) :=
  s.together_reach _ (s.guardParts_reach e m)

/-- A guard that stays changes nothing, and one that takes a new state changes its record alone. -/
theorem State.guardMoves_stay (s : State) (e : Port) : s.guardMoves e .stay = s := by
  unfold State.guardMoves State.guardParts
  split <;> rfl

theorem State.guardMoves_to (s : State) (e : Port) (g : GuardState) (r : Guard) (f : GuardFields)
    (hr : s.guards[e] = some r) (hf : s.egresses[e].entry.guard = some f) :
    s.guardMoves e (.to g) = s.guardTo e g := by
  unfold State.guardMoves State.guardParts
  rw [hr, hf]
  rfl

/-- An event of a guard's ingresses is the move that its table gives. -/
theorem State.guardEvent_moves (s : State) (e : Port) (ev : GuardEvent) (r : Guard) (f : GuardFields)
    (hr : s.guards[e] = some r) (hf : s.egresses[e].entry.guard = some f) :
    s.guardEvent e ev = s.guardMoves e (s.eventMove e f r.state ev) := by
  unfold State.guardEvent State.guardEventParts
  rw [hr, hf]
  rfl

/-- A guard that resumes makes the move that it remembers. -/
theorem State.guardResume_moves (s : State) (e : Port) (r : Guard) (f : GuardFields)
    (hr : s.guards[e] = some r) (hf : s.egresses[e].entry.guard = some f) :
    s.guardResume e = s.guardMoves e (s.resumeMove e f r.state) := by
  unfold State.guardResume State.guardResumeParts
  rw [hr, hf]
  rfl

theorem State.hostSwitch_reach (s : State) (e : Port) (sel : Selection) (n : GuardState) :
    s.GuardReach (s.hostSwitch e sel n) := by
  unfold State.hostSwitch
  split
  · exact .trans (s.guardTo_reach e n) (State.takeChange_reach _ e _)
  · exact .refl s

theorem State.guardSwitch_reach (s : State) (e : Port) (sel : Selection) (a : Bool) (n : GuardState) :
    s.GuardReach (s.guardSwitch e sel a n) := by
  unfold State.guardSwitch
  split
  · exact s.guardMoves_reach e _
  · exact s.hostSwitch_reach e sel n

theorem State.holdOffExpired_reach (s : State) (e : Port) (f : GuardFields) :
    s.GuardReach (s.holdOffExpired e f) := s.guardMoves_reach e _

theorem State.holdOffIfZero_reach (s : State) (e : Port) : s.GuardReach (s.holdOffIfZero e) := by
  unfold State.holdOffIfZero
  split
  · split
    · exact s.holdOffExpired_reach e _
    · exact .refl s
  · exact .refl s

theorem State.guardStart_reach (s : State) (e : Port) (f : GuardFields) :
    s.GuardReach (s.guardStart e f) := s.guardTo_reach e _

theorem State.standbyEvaluation_reach (s : State) (e : Port) (f : GuardFields) :
    s.GuardReach (s.standbyEvaluation e f) := s.guardMoves_reach e _

theorem State.guardEventParts_reach (s : State) (e : Port) (ev : GuardEvent) :
    ∀ b ∈ s.guardEventParts e ev, ∀ f ∈ b, ∀ t : State, t.GuardReach (f t) := by
  unfold State.guardEventParts
  split
  · exact s.guardParts_reach e _
  · exact fun b hb => absurd hb List.not_mem_nil

theorem State.guardEvent_reach (s : State) (e : Port) (ev : GuardEvent) :
    s.GuardReach (s.guardEvent e ev) := s.together_reach _ (s.guardEventParts_reach e ev)

theorem State.guardSuspend_reach (s : State) (e : Port) : s.GuardReach (s.guardSuspend e) := by
  unfold State.guardSuspend
  split
  · exact .refl s
  · split
    · exact s.guardTo_reach e _
    · exact .refl s

theorem State.guardResumeParts_reach (s : State) (e : Port) :
    ∀ b ∈ s.guardResumeParts e, ∀ f ∈ b, ∀ t : State, t.GuardReach (f t) := by
  unfold State.guardResumeParts
  split
  · exact s.guardParts_reach e _
  · exact fun b hb => absurd hb List.not_mem_nil

theorem State.guardResume_reach (s : State) (e : Port) : s.GuardReach (s.guardResume e) :=
  s.together_reach _ (s.guardResumeParts_reach e)

theorem State.guardLock_reach (s : State) (e : Port) (r : Guard) : s.GuardReach (s.guardLock e r) := by
  unfold State.guardLock
  split
  · exact .refl s
  · split
    · exact s.guardSwitch_reach e _ _ _
    · exact s.guardTo_reach e _

theorem State.guardForce_reach (s : State) (e : Port) (r : Guard) :
    s.GuardReach (s.guardForce e r) := by
  unfold State.guardForce
  split
  · exact .refl s
  · split
    · exact s.guardSwitch_reach e _ _ _
    · exact s.guardTo_reach e _

theorem State.guardClear_reach (s : State) (e : Port) (r : Guard) (f : GuardFields) :
    s.GuardReach (s.guardClear e r f) := by
  unfold State.guardClear
  split
  · exact s.guardMoves_reach e _
  · split
    · exact s.standbyEvaluation_reach e f
    · exact .refl s

theorem State.guardCommand_reach (s : State) (e : Port) (r : Guard) (f : GuardFields)
    (c : GuardCommand) : s.GuardReach (s.guardCommand e r f c) := by
  unfold State.guardCommand
  split
  · exact s.guardLock_reach e r
  · exact s.guardForce_reach e r
  · exact s.guardClear_reach e r f

theorem State.guardInit_reach (s : State) (e : Port) : s.GuardReach (s.guardInit e) := by
  unfold State.guardInit
  split
  · exact (s.setGuard_reach e _).trans (State.guardStart_reach _ e _)
  · exact .refl s

/-! ### Line events -/

/-- What a line event, a plan's end or a plan's fire can touch beside what a guard can: the group
interface, plans, claims, and the model's own counters. -/
def State.ControlReach (s t : State) : Prop :=
  (∃ es gs p cs ns l g ps cl n d,
    t = { s with
      egresses := es, guards := gs, pool := p, conds := cs, notices := ns, link := s.link.withSending l
      group := g, plans := ps, claims := cl, guardSerial := n, draws := d })
  ∧ s.NoticesOnly t linesOccurred

/-- An operation of the control blocks that raises no notice. -/
theorem State.ControlReach.quiet {s : State} (es : Vector Egress 16) (gs : Vector (Option Guard) 16) (g : Group)
    (ps : Vector (Option Plan) 8) (cl : Vector (Option Byte) 16) (n d : Nat) :
    s.ControlReach { s with
      egresses := es, guards := gs, group := g, plans := ps, claims := cl, guardSerial := n, draws := d } :=
  ⟨⟨es, gs, s.pool, s.conds, s.notices, s.link, g, ps, cl, n, d, rfl⟩, .of_eq rfl rfl rfl fun _ _ => rfl⟩

theorem State.ControlReach.refl (s : State) : s.ControlReach s := .quiet _ _ _ _ _ _ _

theorem State.ControlReach.trans {s t u : State} (h : s.ControlReach t) (k : t.ControlReach u) :
    s.ControlReach u := by
  refine ⟨?_, h.2.trans k.2⟩
  obtain ⟨⟨_, _, _, _, _, _, _, _, _, _, _, rfl⟩, _⟩ := h
  obtain ⟨⟨es, gs, p, cs, ns, l, g, ps, cl, n, d, rfl⟩, _⟩ := k
  exact ⟨es, gs, p, cs, ns, l, g, ps, cl, n, d, rfl⟩

theorem State.GuardReach.control {s t : State} (h : s.GuardReach t) : s.ControlReach t := by
  refine ⟨?_, h.2.mono linesOccurred_of_guards⟩
  obtain ⟨⟨es, gs, p, cs, ns, l, d, rfl⟩, _⟩ := h
  exact ⟨es, gs, p, cs, ns, l, s.group, s.plans, s.claims, s.guardSerial, d, rfl⟩

theorem State.setDraws_control (s : State) (n : Nat) : s.ControlReach (s.setDraws n) := .quiet _ _ _ _ _ _ _

theorem State.setGroup_control (s : State) (g : Group) : s.ControlReach (s.setGroup g) := .quiet _ _ _ _ _ _ _

theorem State.setPlan_control (s : State) (k : SlotId) (p : Option Plan) :
    s.ControlReach (s.setPlan k p) := .quiet _ _ _ _ _ _ _

theorem State.setClaim_control (s : State) (e : Port) (c : Option Byte) :
    s.ControlReach (s.setClaim e c) := .quiet _ _ _ _ _ _ _

theorem State.setEgress_control (s : State) (e : Port) (g : Egress) :
    s.ControlReach (s.setEgress e g) := .quiet _ _ _ _ _ _ _

theorem State.notify_control (s : State) (b : NoticeBody) (hb : ∀ c, b ≠ .condition c) :
    s.ControlReach (s.notify b) := (s.notify_selector b hb).guard.control

theorem State.occurLine_control (s : State) (p : Port) : s.ControlReach (s.occur (lineCond p)) := by
  obtain ⟨cs, ns, l, h⟩ := s.occur_touches (lineCond p)
  exact ⟨⟨s.egresses, s.guards, s.pool, cs, ns, l, s.group, s.plans, s.claims, s.guardSerial, s.draws, h⟩,
    s.occur_only _ _ (lineCond_occurred p)⟩

theorem State.inSomeOrder_control {α : Type} (s : State) (xs : List α) (f : α → State → State)
    (hf : ∀ x ∈ xs, ∀ t : State, t.ControlReach (f x t)) : s.ControlReach (s.inSomeOrder xs f) :=
  State.inSomeOrder_keeps (fun t => s.ControlReach t) s xs f
    (fun t n h => h.trans (t.setDraws_control n)) (fun x hx t h => h.trans (hf x hx t)) (.refl s)

theorem State.foldl_control {α : Type} (xs : List α) (f : State → α → State)
    (hf : ∀ t x, State.ControlReach t (f t x)) (s : State) : s.ControlReach (xs.foldl f s) := by
  induction xs generalizing s with
  | nil => exact .refl s
  | cons x xs ih => exact (hf s x).trans (ih (f s x))

theorem State.together_control (s : State) (blocks : List (List (State → State)))
    (hf : ∀ b ∈ blocks, ∀ f ∈ b, ∀ t : State, t.ControlReach (f t)) : s.ControlReach (s.together blocks) :=
  State.together_keeps (fun t => s.ControlReach t) (fun t n h => h.trans (t.setDraws_control n)) s blocks
    (fun b hb f hm t h => h.trans (hf b hb f hm t)) (.refl s)

/-- A move of the group interface touches the group interface, and the count of draws where the wiring shows. -/
theorem State.groupTo_control (s : State) (m : Membership) : s.ControlReach (s.groupTo m) := by
  unfold State.groupTo
  refine .trans ?_ (State.setGroup_control _ _)
  split
  · exact s.setDraws_control _
  · exact .refl s

theorem State.groupRelease_control (s : State) : s.ControlReach s.groupRelease := s.groupTo_control _

theorem State.groupEnter_control (s : State) (r : GroupPlan) : s.ControlReach (s.groupEnter r) := by
  unfold State.groupEnter
  split
  · exact s.groupRelease_control
  · exact s.groupTo_control _

theorem State.groupPlanGone_control (s : State) : s.ControlReach s.groupPlanGone := by
  unfold State.groupPlanGone
  dsimp only
  split
  all_goals first
    | exact s.setGroup_control _
    | exact (s.setGroup_control _).trans (State.groupTo_control _ _)

theorem State.groupToldGone_control (s : State) (q : Bool) : s.ControlReach (s.groupToldGone q) := by
  unfold State.groupToldGone
  split
  · exact (s.setGroup_control _).trans (State.groupPlanGone_control _)
  · exact s.groupPlanGone_control

theorem State.groupLineEvent_control (s : State) : s.ControlReach s.groupLineEvent := by
  unfold State.groupLineEvent
  split
  · exact .refl s
  · split
    all_goals first
      | exact .refl s
      | (split <;> first
          | exact .refl s
          | exact s.groupRelease_control
          | exact s.groupTo_control _)

/-- What the receivers of a line event do reaches the condition unit, the group interface and the guards (R8). -/
theorem State.lineParts_control (s : State) (p : Port) (old new : LineState) :
    ∀ b ∈ s.lineParts p old new, ∀ f ∈ b, ∀ t : State, t.ControlReach (f t) := by
  intro b hb f hf t
  rcases List.mem_append.mp hb with hb | hb
  · rcases List.mem_append.mp hb with hb | hb
    · split at hb
      · rw [List.mem_singleton.mp hb] at hf
        rw [List.mem_singleton.mp hf]
        exact t.occurLine_control p
      · exact absurd hb List.not_mem_nil
    · split at hb
      · rw [List.mem_singleton.mp hb] at hf
        rw [List.mem_singleton.mp hf]
        exact t.groupLineEvent_control
      · exact absurd hb List.not_mem_nil
  · obtain ⟨e, _, hb⟩ := List.mem_flatMap.mp hb
    unfold State.guardLineParts at hb
    split at hb
    · exact absurd hb List.not_mem_nil
    · exact (s.guardEventParts_reach e _ b hb f hf t).control

/-- A line event reaches the condition unit, the group interface and the guards (R8), and nothing of the
ingresses. -/
theorem State.announceLine_control (s : State) (p : Port) (old : LineState) :
    s.ControlReach (s.announceLine p old) := by
  unfold State.announceLine
  dsimp only
  split
  · exact .refl s
  · exact s.together_control _ (s.lineParts_control p _ _)

theorem State.putIngress_control (s : State) (p : Port) (g : Ingress) :
    (s.setPort p g).ControlReach (s.putIngress p g) := State.announceLine_control _ p _

/-! ### MARK events -/

/-- With no MARK event waiting nothing is taken (R81). -/
theorem State.takeMarks_none (s : State) (h : ∀ p : Port, s.ports[p].markDue = false) : s.takeMarks = s := by
  unfold State.takeMarks
  rw [List.filter_eq_nil_iff.mpr fun p _ => by simp only [h p]; simp]
  rfl

/-! ### Plans -/

theorem State.newGuard_control (s : State) (e : Port) (g : GuardState) :
    s.ControlReach (s.newGuard e g) := by
  unfold State.newGuard
  split
  · exact .quiet _ _ _ _ _ _ _
  · exact .quiet _ _ _ _ _ _ _

theorem State.handEdit_control (s : State) (id : Byte) (n : Nat) (d : Edit) :
    s.ControlReach (s.handEdit id n d) := by
  unfold State.handEdit
  exact ((s.setEgress_control _ _).trans (State.newGuard_control _ _ _)).trans
    (State.takeChange_reach _ _ _).control

theorem State.firePlan_control (s : State) (k : SlotId) (epoch : Option Half) (byRequest : Bool) :
    s.ControlReach (s.firePlan k epoch byRequest) := by
  unfold State.firePlan
  split
  · exact .refl s
  · split
    · dsimp only
      refine .trans ?_ (State.foldl_control _ _ (fun t d => t.handEdit_control _ _ d) _)
      split
      · exact (s.setPlan_control _ _).trans (State.notify_control _ _ fun _ => nofun)
      · exact s.setPlan_control _ _
    · exact .refl s

theorem State.fireWaiting_control (s : State) (g : Trigger) : s.ControlReach (s.fireWaiting g) :=
  s.inSomeOrder_control _ _ fun k _ t => t.firePlan_control k none false

theorem State.takeGroupFire_control (s : State) : s.ControlReach s.takeGroupFire := by
  unfold State.takeGroupFire
  split
  · exact .refl s
  · exact s.firePlan_control _ _ _

theorem State.releaseClaims_control (s : State) (es : List Port) :
    s.ControlReach (s.releaseClaims es) :=
  State.foldl_control es _ (fun t e => t.setClaim_control e none) s

theorem State.injectDiscard_control (s : State) (e : Port) : s.ControlReach (s.injectDiscard e) :=
  (s.injectDiscard_selector e).guard.control

theorem State.resumeGuards_control (s : State) (es : List Port) :
    s.ControlReach (s.resumeGuards es) :=
  s.together_control _ fun b hb f hf t => by
    obtain ⟨e, _, hb⟩ := List.mem_flatMap.mp hb
    exact (s.guardResumeParts_reach e b hb f hf t).control

theorem State.dropStranded_control (s : State) (p : Plan) : s.ControlReach (s.dropStranded p) :=
  s.inSomeOrder_control _ _ fun e _ t => t.injectDiscard_control e

theorem State.letGo_control (s : State) (p : Plan) (q : Bool) : s.ControlReach (s.letGo p q) := by
  unfold State.letGo
  dsimp only
  have h := ((s.releaseClaims_control (p.edits.map (·.egress))).trans
    (State.resumeGuards_control _ (p.edits.map (·.egress)))).trans (State.dropStranded_control _ p)
  split
  · exact h.trans (State.groupToldGone_control _ _)
  · exact h

theorem State.expirePlan_control (s : State) (k : SlotId) (p : Plan) (r : ExpiryReason) (q : Bool) :
    s.ControlReach (s.expirePlan k p r q) :=
  ((s.setPlan_control _ _).trans (State.letGo_control _ _ _)).trans (State.notify_control _ _ fun _ => nofun)

theorem State.groupArmed_control (s : State) (r : GroupPlan) : s.ControlReach (s.groupArmed r) := by
  unfold State.groupArmed
  dsimp only
  split
  · exact (s.setGroup_control _).trans (State.groupEnter_control _ r)
  all_goals exact s.setGroup_control _

theorem State.claim_control (s : State) (id : Byte) (e : Port) : s.ControlReach (s.claim id e) :=
  (s.setClaim_control _ _).trans (State.guardSuspend_reach _ e).control

theorem State.takeClaims_control (s : State) (p : Plan) : s.ControlReach (s.takeClaims p) :=
  State.foldl_control _ _ (fun t e => t.claim_control p.id e) s

theorem State.tellArmed_control (s : State) (p : Plan) : s.ControlReach (s.tellArmed p) := by
  unfold State.tellArmed
  split
  · exact s.groupArmed_control _
  · exact .refl s

theorem State.armPlan_control (s : State) (k : SlotId) (p : Plan) :
    s.ControlReach (s.armPlan k p) := by
  unfold State.armPlan
  dsimp only
  have h := ((s.takeClaims_control p).trans (State.setPlan_control _ k
    (some { p with state := .armed, timer := p.armTimer }))).trans (State.tellArmed_control _ p)
  split
  · exact h.trans (State.firePlan_control _ _ _ _)
  · exact h

theorem State.completePlan_control (s : State) (k : SlotId) (p : Plan) :
    s.ControlReach (s.completePlan k p) := by
  unfold State.completePlan
  dsimp only
  refine .trans ?_ (State.notify_control _ _ fun _ => nofun)
  split
  · exact (s.setPlan_control _ _).trans (State.setGroup_control _ _)
  · exact s.setPlan_control _ _

theorem State.editSettled_control (s : State) (k : SlotId) (q : Plan) (e : Port) :
    s.ControlReach (s.editSettled k q e) :=
  (((s.setPlan_control _ _).trans (State.setClaim_control _ e none)).trans
    (State.guardInit_reach _ e).control).trans (State.holdOffIfZero_reach _ e).control

theorem State.takeEditSettle_control (s : State) (e : Port) (ev : PlanSettle) :
    s.ControlReach (s.takeEditSettle e ev) := by
  unfold State.takeEditSettle
  dsimp only
  have h := s.setEgress_control e { s.egresses[e] with planSettle := none }
  split
  · exact h
  · split
    · split
      · exact (h.trans (State.editSettled_control _ _ _ e)).trans (State.completePlan_control _ _ _)
      · exact h.trans (State.editSettled_control _ _ _ e)
    · exact h

theorem State.connect_control (s : State) (e : Port) (entry : Entry) (d : Nat) (n : Bool) (tag : Byte) :
    s.ControlReach (s.connect e entry d n tag) :=
  ((((s.setEgress_control _ _).trans (State.newGuard_control _ _ _)).trans
    (State.guardInit_reach _ e).control).trans (State.takeChange_reach _ _ _).control).trans
    (State.holdOffIfZero_reach _ e).control

/-! ### The queue -/

/-- No meaning reads or writes the queue of commands: it is part of no block. -/
theorem State.ControlReach.pending {s t : State} (h : s.ControlReach t) : t.pending = s.pending := by
  obtain ⟨⟨_, _, _, _, _, _, _, _, _, _, _, rfl⟩, _⟩ := h
  rfl

theorem State.arbitrate_pending (s : State) : s.arbitrate.pending = s.pending := by
  obtain ⟨_, _, _, h⟩ := s.arbitrate_touches
  rw [h]

end Sys2Proof.Machine
end

