-- ==== Sys2Proof/Laws/Words.lean ====
section
/-! SUPPORT. The words of the statements: what a request that the executor can take does, and which ports,
slots and contexts a byte names. -/

namespace Sys2Proof.Machine

/-- A request of the right kind that the executor can take: its meaning on the state without it, and the
reply (R163). -/
theorem State.execute_kind (s : State) (m : Message) (rest : List Message) (kind : Byte)
    (body : Message → State → Answer × State) (h : s.CanTake m rest kind) :
    s.execute (fun k => decide (k = kind)) body
      = (body m (s.taken rest)).2.replied m (body m (s.taken rest)).1 := by
  obtain ⟨hp, hr, hf, hi, hk⟩ := h
  exact s.execute_taken _ body m rest hp hr hf hi (by simp [hk])

theorem State.execute_accepted (s : State) (m : Message) (rest : List Message) (kind : Byte)
    (accepts : Byte → Bool) (body : Message → State → Answer × State) (h : s.CanTake m rest kind)
    (ha : accepts kind = true) :
    s.execute accepts body = (body m (s.taken rest)).2.replied m (body m (s.taken rest)).1 := by
  obtain ⟨hp, hr, hf, hi, hk⟩ := h
  exact s.execute_taken _ body m rest hp hr hf hi (by rw [hk]; exact ha)

theorem readBelow_port (p : Port) : readBelow 16 (natByte p.val) = some p := by revert p; decide

theorem readBelow_context (k : ContextId) : readBelow 2 (natByte k.val) = some k := by revert k; decide

theorem readBelow_above (n : Nat) (b : Byte) (h : n ≤ b.toNat) : readBelow n b = none := by
  simp [readBelow, Nat.not_lt.mpr h]

theorem readBelow_some (n : Nat) (b : Byte) (k : Fin n) : readBelow n b = some k ↔ b.toNat = k.val := by
  unfold readBelow
  split
  · simp [Fin.ext_iff]
  · rename_i h
    have := k.isLt
    simp
    omega

theorem readFlag_some (b : Byte) (f : Bool) : readFlag b = some f ↔ b = flagByte f := by
  revert b f; decide

theorem readFlag_above (b : Byte) (h : 2 ≤ b.toNat) : readFlag b = none := by
  revert b; decide

/-! ### What taking a request leaves of the state -/

theorem taken_touches (s : State) (rest : List Message) :
    s.taken rest = { s with link := { s.link with intake := rest } } := rfl

/-- The plan a search by id gives carries that id and stands in that slot (R70). -/
theorem State.findPlan_some (s : State) (id : Byte) (k : SlotId) (p : Plan)
    (h : s.findPlan id = some (k, p)) : s.plans[k] = some p ∧ p.id = id := by
  unfold State.findPlan at h
  obtain ⟨j, _, hj⟩ := List.exists_of_findSome?_eq_some h
  revert hj
  cases hq : s.plans[j] with
  | none => simp
  | some q =>
    by_cases hid : q.id = id
    · simp only [hid, if_true, Option.some.injEq, Prod.mk.injEq]
      rintro ⟨rfl, rfl⟩
      exact ⟨hq, hid⟩
    · simp [hid]

theorem State.findPlan_none (s : State) (id : Byte) :
    s.findPlan id = none ↔ ∀ (k : SlotId) (p : Plan), s.plans[k] = some p → p.id ≠ id := by
  unfold State.findPlan
  rw [List.findSome?_eq_none_iff]
  constructor
  · intro h k p hk hid
    have := h k (by simp [allSlots])
    simp [hk, hid] at this
  · intro h k _
    cases hk : s.plans[k] with
    | none => rfl
    | some p => simp [h k p hk]

/-! ### Orders, line events and guards -/

/-- Only blocks with something to do are busy. -/
theorem busyBlocks_head {α : Type} (blocks : List (List α)) (k : Nat) (h : k ∈ busyBlocks blocks) :
    ∃ f rest, blocks[k]? = some (f :: rest) := by
  unfold busyBlocks at h
  obtain ⟨hk, hb⟩ := List.mem_filter.mp h
  have hlt := List.mem_range.mp hk
  rw [List.getD_eq_getElem?_getD, List.getElem?_eq_getElem hlt] at hb
  rw [List.getElem?_eq_getElem hlt]
  cases hc : blocks[k] with
  | nil => simp [hc] at hb
  | cons f rest => exact ⟨f, rest, rfl⟩

/-- With no block busy, no block has anything to do. -/
theorem busyBlocks_nil {α : Type} (blocks : List (List α)) (h : busyBlocks blocks = []) :
    ∀ b ∈ blocks, b = [] := by
  intro b hb
  obtain ⟨k, hk, rfl⟩ := List.getElem_of_mem hb
  have := List.filter_eq_nil_iff.mp h k (List.mem_range.mpr hk)
  simpa [List.getD_eq_getElem?_getD, List.getElem?_eq_getElem hk] using this

/-- The block that goes on is a busy one, and there is one as long as any is busy. -/
theorem State.nextBlock_busy (s : State) (blocks : List (List (State → State))) :
    (busyBlocks blocks = [] ∧ (s.nextBlock blocks).1 = none)
      ∨ ∃ k ∈ busyBlocks blocks, (s.nextBlock blocks).1 = some k := by
  unfold State.nextBlock
  split
  · rename_i h; exact .inl ⟨h, rfl⟩
  · rename_i k h; exact .inr ⟨k, by simp [h], rfl⟩
  · rename_i j k ks h
    right
    split
    · rename_i i hi; exact ⟨i, h ▸ List.mem_of_find?_eq_some hi, rfl⟩
    · have hlt : Config.freeChoice s.draws % (j :: k :: ks).length < (j :: k :: ks).length :=
        Nat.mod_lt _ (by simp)
      exact ⟨_, by rw [h]; exact List.getElem_mem hlt, List.getElem?_eq_getElem hlt⟩

/-- Doing the first thing of a block leaves one thing less to do. -/
theorem length_flatten_set {α : Type} (blocks : List (List α)) (k : Nat) (f : α) (rest : List α)
    (h : blocks[k]? = some (f :: rest)) : (blocks.set k rest).flatten.length + 1 = blocks.flatten.length := by
  induction blocks generalizing k with
  | nil => simp at h
  | cons b blocks ih =>
    cases k with
    | zero =>
      rw [List.getElem?_cons_zero, Option.some.injEq] at h
      subst h
      simp only [List.set_cons_zero, List.flatten_cons, List.length_append, List.length_cons]; omega
    | succ k =>
      have := ih k h
      simp only [List.set_cons_succ, List.flatten_cons, List.length_append]; omega

/-- What several blocks do together is done as Together says (R153). -/
theorem State.together_order (s : State) (blocks : List (List (State → State))) :
    s.Together blocks (s.together blocks) := by
  have aux : ∀ (n : Nat) (blocks : List (List (State → State))) (s : State), blocks.flatten.length = n →
      s.Together blocks (State.goOn n blocks s) := by
    intro n
    induction n with
    | zero =>
      intro blocks s h
      exact ⟨[], fun b hb => List.flatten_eq_nil_iff.mp (List.eq_nil_of_length_eq_zero h) b hb, rfl⟩
    | succ n ih =>
      intro blocks s h
      rcases s.nextBlock_busy blocks with ⟨hb, _⟩ | ⟨k, hk, hn⟩
      · have := List.flatten_eq_nil_iff.mpr (busyBlocks_nil blocks hb)
        simp [this] at h
      · obtain ⟨f, rest, hf⟩ := busyBlocks_head blocks k hk
        have hl := length_flatten_set blocks k f rest hf
        obtain ⟨turns, ht⟩ := ih (blocks.set k rest) (f (s.setDraws (s.nextBlock blocks).2)) (by omega)
        refine ⟨f :: turns, k, (s.nextBlock blocks).2, rest, hf, ?_⟩
        have e : State.goOn (n + 1) blocks s
            = State.goOn n (blocks.set k rest) (f (s.setDraws (s.nextBlock blocks).2)) := by
          rw [State.goOn]
          generalize hg : s.nextBlock blocks = q at hn
          obtain ⟨q1, q2⟩ := q
          subst hn
          simp only [hf]
        rw [e]; exact ht
  exact aux _ blocks s rfl

/-- A change that is not away from INJECT is the selector's alone (R33, R44): the change in flight settles, and
the selector acts on the new one. -/
theorem State.takeChange_selectorAlone (s : State) (e : Port) (ch : Change)
    (h : s.egresses[e].current ≠ .inject ∨ ch.target = .inject) :
    s.takeChange e ch = (s.egresses[e].selectorPart e ch).foldl (fun t f => f t) s := by
  have hi : s.egresses[e].injectionPart e ch = [] := by
    unfold Egress.injectionPart
    exact if_neg fun ⟨h1, h2⟩ => h.elim (fun k => k h1) h2
  unfold State.takeChange
  rw [hi, State.together_second]

/-- A line event leaves the ingresses as they are (R8). -/
theorem State.announceLine_ports (s : State) (p : Port) (old : LineState) :
    (s.announceLine p old).ports = s.ports := by
  obtain ⟨⟨_, _, _, _, _, _, _, _, _, _, _, h⟩, _⟩ := s.announceLine_control p old
  rw [h]

/-- Putting an ingress in a new state is heard as LineHeard says (R8). -/
theorem State.putIngress_heard (s : State) (p : Port) (g : Ingress) : s.LineHeard (s.putIngress p g) p := by
  unfold State.LineHeard State.putIngress
  rw [State.announceLine_ports]
  simp [State.setPort]

/-- The state of a guard that is there, set. -/
theorem State.guardTo_some (s : State) (e : Port) (r : Guard) (g : GuardState) (h : s.guards[e] = some r) :
    s.guardTo e g = s.setGuard e (some { r with state := g }) := by
  unfold State.guardTo
  rw [h]
  rfl

/-- The milliseconds left, as the reports give them (R93, R180). -/
theorem ctToMsUp_max (left : Nat) : ctToMsUp left = max 1 ((left + 99999) / 100000) := by
  unfold ctToMsUp Config.ctPerMs
  omega

/-! ### What is due -/

theorem mem_dueOf (xs : List (Bool × Instr)) (c : Instr) : c ∈ dueOf xs ↔ (true, c) ∈ xs := by
  simp [dueOf]

/-- The executor's head is the request that it can take (R163). -/
theorem State.executorHead_iff (s : State) (hp : s.phase = .run) (m : Message) :
    s.executorHead = some m ↔ ∃ rest, s.CanTake m rest m.kind := by
  unfold State.executorHead State.CanTake Link.entryFree
  cases hi : s.link.intake <;> simp [hp]
  aesop

/-- The rows of the executor are those of requests (R173). -/
theorem requestCommand_mem (kind : Byte) :
    requestCommand kind ∈ ([.unknownRequestKind, .echo, .status, .restart, .setFraming, .setPort, .portStatus,
      .connect, .mapRead, .guardControl, .planLoad, .planArm, .planFire, .planCancel false, .planRead,
      .planRelease, .groupConfig, .groupStatus, .patternConfig, .injectStart, .injectCont, .injectAbort,
      .poolStatus, .conditionsRead, .conditionsClear, .subscribe] : List Instr) := by
  revert kind
  decide

/-- A time rounded up to a whole character time (R154; log entry 9). -/
theorem div_up_bounds (a r : Nat) (hr : 0 < r) :
    a ≤ (a + (r - 1)) / r * r ∧ (a + (r - 1)) / r * r < a + r := by
  have h1 := Nat.div_add_mod (a + (r - 1)) r
  have h2 := Nat.mod_lt (a + (r - 1)) hr
  rw [Nat.mul_comm] at h1
  omega

end Sys2Proof.Machine
end

