-- ==== Sys2Proof/Tests/Slice0.lean ====
section
/-! SUPPORT. Tests of the model on small states, and for every statement that has hypotheses a witness that
they can be met together. -/

namespace Sys2Proof.Tests

open Sys2Proof.Machine

/-! ### Small states -/

/-- The part after a reset, HELLO sent and MTX idle. -/
def bench : State := { State.reset with link := Link.afterReset }

def req (kind : Byte) (payload : List Byte) : Message := { kind := kind, tag := 1, payload := payload }

/-- A request stands alone in the intake queue. -/
def ask (s : State) (kind : Byte) (payload : List Byte) : State :=
  { s with link := { s.link with intake := [req kind payload] } }

/-- What MTX sends once the command has run. -/
def sends (c : Instr) (s : State) : Option (List Byte) :=
  (afterCommand c s).link.mtx.map fun m => m.message.payload

/-- What the reply says once the command has run: with MTX idle it is sent at once, unless a notice of the same event
has started before it (R166). -/
def answer (c : Instr) (s : State) : Option (List Byte) :=
  match (afterCommand c s).link.executed with
  | [] => sends c s
  | r :: _ => some r.message.payload

/-- MTX is sending a message, so that notices wait. -/
def mtxBusy (s : State) : State :=
  s.setLink { s.link with mtx := some { message := req 1 [0], restart := false, left := 9 } }

/-- On any of the states below the executor can take any request. -/
theorem canTake_ask (s : State) (hp : s.phase = .run) (hr : s.link.restartPending = false)
    (hq : s.link.replies < 6) (kind : Byte) (payload : List Byte) :
    (ask s kind payload).CanTake (req kind payload) [] kind := ⟨hp, hr, hq, rfl, rfl⟩

theorem witness_bench_takes_any_request (kind : Byte) (payload : List Byte) :
    (ask bench kind payload).CanTake (req kind payload) [] kind :=
  canTake_ask bench rfl rfl (by decide) kind payload

def withPort (g : Ingress) : State := bench.setPort 2 g
def carryPort : Ingress :=
  { Ingress.afterReset true with line := .carry, window := some { pos := 0, count := 0 } }

def withEgress (g : Egress) : State := bench.setEgress 1 g
def onSource (src : Source) (st : SelState) (inside : Bool) (ch : Option Change) : Egress :=
  { Egress.afterReset with current := src, state := st, inside := inside, change := ch }
def toSource (src : Source) (pol : Policy) : Change :=
  { target := src, policy := pol, deadline := none, requester := .connect 7 true, cut := .none }

/-- A guard on egress 1: primary ingress 2, standby ingress 3, hold-off 50 ms, REVERT after 10 s. -/
def fields : GuardFields :=
  { standby := 3, requireTraffic := false, holdOff := 5, restore := .revert 10 }
def guardEntry (f : GuardFields) : Entry := { source := .ingress 2, policy := .clean, guard := some f }
def guarded (g : GuardState) (primary standby : LineState) : State :=
  (((bench.setEgress 1
      { onSource (.ingress 2) .steady false none with entry := guardEntry fields }).setGuard 1
      (some { ident := 0, state := g, last := none })).setPort 2
      { carryPort with line := primary }).setPort 3 { carryPort with line := standby }

/-- One plan, id 9 in slot 0, that puts egress 4 on ingress 8. -/
def edit : Edit :=
  { egress := 4, entry := { source := .ingress 8, policy := .clean, guard := none }, outcome := none }
def planOf (st : PlanState) (trigger : Trigger) (timer : Option Nat) : Plan :=
  { id := 9, state := st, trigger := trigger, armExpiry := 0, groupWait := 1, drainDeadline := 500
    fireNotice := true, edits := [edit], timer := timer, fireTime := none, doneTime := none
    reason := none, epochAtFire := none }
def planned (st : PlanState) (trigger : Trigger) (timer : Option Nat) : State :=
  bench.setPlan 0 (some (planOf st trigger timer))

def grouped (m : Membership) (high : Bool) (r : Option GroupPlan) : State :=
  bench.setGroup { bench.group with membership := m, high := high, plan := r }
def groupRecord (applying : Bool) (ready : Ready) : GroupPlan :=
  { id := 9, applying := applying, ready := ready, sources := [8] }

/-! ### Which commands can reach the block -/

theorem test_payload_of_249_is_refused :
    (Instr.requestArrival 1 1 (List.replicate 249 0)).wellFormed = false
      ∧ (Instr.requestArrival 1 1 (List.replicate 248 0)).wellFormed = true := by decide +kernel

theorem test_len_in_range_is_no_len_error :
    (Instr.lenOutOfRange 2).wellFormed = false ∧ (Instr.lenOutOfRange 250).wellFormed = false
      ∧ (Instr.lenOutOfRange 1).wellFormed = true ∧ (Instr.lenOutOfRange 251).wellFormed = true := by
  decide

theorem test_ill_formed_commands_change_nothing :
    afterCommand (.requestArrival 1 1 (List.replicate 249 0)) bench = bench
      ∧ afterCommand (.lenOutOfRange 2) bench = bench := by decide +kernel

/-! ### Resets, the queue and the clock -/

theorem test_no_word_spells_a_command : decodeTableWord 16 0xD112 = none
    ∧ State.reset.withFetchWord 16 0xD112 = State.reset := by decide

theorem witness_EmptyQueueTakesADueEventOrPassesTime :
    (ask bench 0x01 []).pending = [] ∧ (ask bench 0x01 []).dueCommands = [.echo]
      ∧ bench.pending = [] ∧ bench.dueCommands = [] ∧ bench.phase = .run ∧ bench.subMicro < 99
      ∧ ({ bench with subMicro := 99 } : State).dueCommands = [] := by decide

theorem witness_EmptyQueueTakesADueEventOrPassesTime_timers :
    (guarded (.holdoff 2) .quiet .quiet).guards[(1 : Port)]
        = some { ident := 0, state := .holdoff 2, last := none }
      ∧ (guarded (.restoreWait 1) .quiet .quiet).guards[(1 : Port)]
        = some { ident := 0, state := .restoreWait 1, last := none }
      ∧ GuardState.watching.timer = none
      ∧ (guarded (.holdoff 2) .quiet .quiet).dueCommands = [] := by decide +kernel

/-- A noise window at its last character time and at its end (R5), and timers at 1 and at 0. -/
theorem witness_EmptyQueueTakesADueEventOrPassesTime_due :
    let window (pos : Nat) : Ingress := { carryPort with window := some { pos := pos, count := 0 } }
    (withPort (window 4095)).dueCommands = [] ∧ (withPort (window 4096)).dueCommands = [.noiseWindowEnd 2]
      ∧ (withPort { carryPort with readDue := true }).dueCommands = [.trackerRead 2]
      ∧ (withPort { carryPort with sdLoss := some 1 }).dueCommands = []
      ∧ (withPort { carryPort with sdLoss := some 0, traffic := some 0 }).dueCommands
          = [.sdLossTimerExpiry 2, .trafficTimerExpiry 2]
      ∧ (guarded (.holdoff 0) .quiet .quiet).dueCommands = [.holdOffExpiry 1] := by decide +kernel

/-- What a restart and a hardware reset do with an empty queue (R169). -/
theorem witness_EmptyQueueTakesADueEventOrPassesTime_resets :
    ({ bench with phase := .restart 1 } : State).dueCommands = []
      ∧ ({ bench with phase := .restart 0 } : State).dueCommands = [.restartEnd bench.strapPins]
      ∧ step { bench with phase := .restart 1 } = .next { bench with phase := .restart 0 }
      ∧ step { bench with phase := .hardwareReset .pin } = .next { bench with phase := .hardwareReset .pin } :=
  ⟨by decide, by decide, rfl, rfl⟩

theorem test_time_base_counts_microseconds :
    (match step { bench with subMicro := 99 } with
      | .next t => t.timeBase
      | .fault _ => 0
      | .refused _ => 0) = 1 := by decide +kernel

theorem test_power_stays_the_cause_of_a_reset :
    (afterCommand (.hardwareReset .pin true) { bench with phase := .hardwareReset .power }).phase
      = .hardwareReset .power
    ∧ (afterCommand (.hardwareReset .pin true) bench).phase = .hardwareReset .pin := by decide

theorem witness_HardwareResetTakesEffectAtOnce :
    ({ bench with phase := .restart 7 } : State).phase ≠ .run
      ∧ (∀ cause tep, Instr.sdAssert 2 ≠ .hardwareReset cause tep)
      ∧ (∀ i, Instr.sdAssert 2 ≠ .hardwareResetEnd i)
      ∧ (∀ straps, Instr.sdAssert 2 ≠ .restartEnd straps)
      ∧ (afterCommand (.sdAssert 2) { bench with phase := .restart 7 }).ports[(2 : Port)].sd = true := by
  refine ⟨by decide, ?_, ?_, ?_, by decide⟩
  · intro cause tep h
    exact nomatch h
  · intro i h
    exact nomatch h
  · intro straps h
    exact nomatch h

theorem witness_ResetEndQueuesHello :
    ({ bench with phase := .hardwareReset .pin } : State).phase = .hardwareReset .pin
      ∧ ({ bench with phase := .restart 0 } : State).phase = .restart 0 := by decide

theorem test_hello_after_a_restart_says_request :
    (afterCommand (.restartEnd { lrate := 3, tepHigh := true })
      { bench with phase := .restart 0 }).link.mtx.map (fun m => m.message.payload)
      = some [0, 0, 0, 0, 0, 0, 0x16, 0x10, 1, 2, 3, 1, 0, 0, 0, 0] := by decide

/-! ### The management link -/

def fourRequests : List Message :=
  [{ kind := 1, tag := 1, payload := [] }, { kind := 1, tag := 2, payload := [] },
   { kind := 1, tag := 3, payload := [] }, { kind := 1, tag := 4, payload := [] }]
def waiting (intake : List Message) (replies : Nat) : State :=
  { bench with
    link :=
      { bench.link with
        intake := intake
        executed := List.replicate replies
          { kind := 1, tag := 9, status := .ok, result := [], restart := false }
        mtx := some { message := req 1 [0], restart := false, left := 9 } } }

theorem witness_RequestArrivalChecksTagAndRoom :
    (waiting fourRequests 5).phase = .run ∧ (waiting fourRequests 5).link.restartPending = false
      ∧ (List.replicate 248 (0 : Byte)).length ≤ 248
      ∧ (∃ m ∈ (waiting fourRequests 5).link.intake, m.tag = 4)
      ∧ (∀ m ∈ (waiting fourRequests 5).link.intake, m.tag ≠ 5)
      ∧ 4 ≤ (waiting fourRequests 5).link.intake.length
      ∧ (waiting (fourRequests.take 3) 5).link.intake.length < 4
      ∧ (waiting fourRequests 5).link.replies < 6 ∧ ¬ (waiting fourRequests 6).link.replies < 6 := by
  decide +kernel

theorem test_arrival_refusals :
    (afterCommand (.requestArrival 0x21 4 []) (waiting fourRequests 5)).link.refusals.map
        (fun r => r.status) = [.tagInUse]
    ∧ (afterCommand (.requestArrival 0x21 5 []) (waiting fourRequests 5)).link.refusals.map
        (fun r => r.status) = [.busy]
    ∧ (afterCommand (.requestArrival 0x21 0 []) (waiting fourRequests 6)).conds[linkOverrun].count = 1
    ∧ (afterCommand (.requestArrival 0x21 4 []) (waiting (fourRequests.take 3) 6)).link.intake.length
        = 4 := by
  decide

def framed (f : Framer) : State :=
  { bench with link := { bench.link with framer := f, gapTimer := some 5 } }

theorem witness_FramerFollowsItsBytes :
    (framed .seek).phase = .run ∧ (framed .seek).link.restartPending = false
      ∧ (framed .seek).link.framer = .seek ∧ (0xD1 : Byte) = 0xD1 ∧ (0xD0 : Byte) ≠ 0xD1
      ∧ (framed .length).link.framer = .length ∧ 2 ≤ (2 : Byte).toNat ∧ (250 : Byte).toNat ≤ 250
      ∧ (1 : Byte).toNat < 2 ∧ 250 < (251 : Byte).toNat
      ∧ (framed (.body 2 [] 0)).link.framer = .body 2 [] 0 ∧ ([] : List Byte).length + 1 ≠ 2
      ∧ (framed (.body 2 [1] 0)).link.framer = .body 2 [1] 0 ∧ [(1 : Byte)].length + 1 = 2
      ∧ (framed (.checkHigh [1, 1] 0)).link.framer = .checkHigh [1, 1] 0
      ∧ (framed (.checkLow [1, 1] 0x0203 2)).link.framer = .checkLow [1, 1] 0x0203 2
      ∧ (2 : Byte) ++ (3 : Byte) = (0x0203 : Half) ∧ (2 : Byte) ++ (4 : Byte) ≠ (0x0203 : Half)
      ∧ (framed .length).link.framer ≠ .seek ∧ (framed .length).link.gapTimer.isSome
      ∧ (1 : Byte).toNat ≤ 1 ∧ 251 ≤ (251 : Byte).toNat := by decide

theorem test_framing_error_is_a_check_failure :
    (afterCommand (.byteReceived 0 true) (framed .length)).conds[linkCheck].count = 1
    ∧ (afterCommand (.byteReceived 0xD1 true) (framed .seek)).link.framer = .seek
    ∧ (afterCommand .gapTimerExpiry (framed .length)).conds[linkTrunc].latch = true
    ∧ (afterCommand .checkFailure bench).conds[linkCheck].count = 1 := by decide

theorem witness_EnvelopeBytesAreTheMessage :
    bench.phase = .run ∧ bench.link.restartPending = false ∧ bench.link.framer = .seek
      ∧ (bench.link.refusals = [] ∧ bench.link.executed = [] ∧ bench.notices.entries = [])
      ∧ (req 1 (List.replicate 248 0)).payload.length ≤ 248 := by decide +kernel

/-- ECHO of one byte, from the line to the reply. -/
theorem test_echo_over_the_line :
    answer .echo (bench.feed (req 0x01 [0x5A]).envelope) = some [0, 0x5A] := by decide +kernel

theorem test_envelope_of_an_echo :
    (req 0x01 [0x5A]).envelope.take 5 = [0xD1, 3, 1, 1, 0x5A] := by decide

def oneReply : Reply := { kind := 1, tag := 2, status := .ok, result := [], restart := false }
def queued (body : NoticeBody) (rest : List Notice) (loss : Option Word32) : State :=
  { bench with
    notices :=
      { entries := { number := 1, time := 0, body := body } :: rest, next := 2, lost := 1
        firstLoss := loss } }

theorem witness_ArbiterSendsRepliesBeforeNotices :
    State.reset.link.mtx.isSome ∧ State.reset.phase = .run
      ∧ ({ bench with link := { bench.link with refusals := [oneReply] } } : State).link.refusals
          = oneReply :: []
      ∧ ({ bench with link := { bench.link with executed := [oneReply] } } : State).link.executed
          = oneReply :: []
      ∧ bench.link.mtx = none ∧ bench.link.refusals = [] ∧ bench.link.executed = []
      ∧ (queued (.condition 4) [] none).notices.entries.length = 1
      ∧ (queued (.condition 4) [] none).notices.firstLoss = none
      ∧ (queued (.overflow 1 0) [] (some 0)).notices.entries.tail.length ≠ 16
      ∧ bench.notices.entries = [] := by decide

/-- The departure that leaves 16 notices, a loss being recorded (R152). -/
theorem witness_ArbiterSendsRepliesBeforeNotices_loss :
    let s := queued (.condition 4) (List.replicate 16 { number := 0, time := 0, body := .condition 5 }) (some 7)
    s.phase = .run ∧ s.link.mtx = none ∧ s.link.refusals = [] ∧ s.link.executed = []
      ∧ s.notices.entries.tail.length = 16 ∧ s.notices.firstLoss = some 7 := by decide

theorem test_a_departure_reports_the_loss :
    let s := queued (.condition 4) (List.replicate 16 { number := 0, time := 0, body := .condition 5 }) (some 7)
    s.arbitrate.notices.entries.getLast? = some { number := 2, time := 0, body := .overflow 1 7 }
      ∧ s.arbitrate.notices.next = 3 ∧ s.arbitrate.notices.firstLoss = none ∧ s.arbitrate.notices.lost = 0 := by
  decide

/-- Six bytes of ten bits at 57600 bit/s are 1041666.6 ns, and at 1000000 bit/s 60 us (R154). -/
theorem test_how_long_a_message_lasts :
    (req 1 []).duration 0 = 104167 ∧ (req 1 []).duration 3 = 6000 := by decide

theorem test_departing_condition_notice_drops_its_mark :
    let s := (queued (.condition 4) [] none).setCond 4
      { latch := true, count := 3, subscribed := true, pending := true }
    s.arbitrate.conds[(4 : CondId)].pending = false
      ∧ s.arbitrate.link.mtx.map (fun m => m.message.payload)
          = some [0, 1, 0, 0, 0, 0, 4, 1, 3] := by decide

def sendingMtx (restart : Bool) : State :=
  { bench with
    link := { bench.link with mtx := some { message := req 3 [0], restart := restart, left := 0 } } }

theorem witness_RestartWaitsForItsReplyToBeSent :
    (sendingMtx true).phase = .run
      ∧ (sendingMtx true).link.mtx = some { message := req 3 [0], restart := true, left := 0 }
      ∧ (sendingMtx false).link.mtx = some { message := req 3 [0], restart := false, left := 0 } := by
  decide

theorem test_a_restart_holds_every_block_in_reset :
    let t := afterCommand .sendComplete { sendingMtx true with
      maxframe := 64, senses := bench.senses.set 3 { level := true, qualifier := .high }
      group := { bench.group with membership := .nonMember, epoch := 7, high := true } }
    t.maxframe = 16384 ∧ t.senses[(3 : SenseId)] = { level := true, qualifier := .low }
      ∧ t.group.membership = .unset ∧ t.group.epoch = 0 ∧ t.group.episode = false
      ∧ t.group.faultTimer = none := by decide +kernel

theorem test_restart_begins_after_its_reply :
    (afterCommand .sendComplete (sendingMtx true)).phase = .restart 2000
      ∧ (afterCommand .sendComplete (sendingMtx false)).link.mtx = none := by decide

theorem witness_EchoReturnsItsPayload :
    (req 0x01 (List.replicate 247 0)).payload.length ≤ 247
      ∧ 248 ≤ (req 0x01 (List.replicate 248 0)).payload.length := by decide +kernel

theorem test_echo_replies :
    answer .echo (ask bench 0x01 (List.replicate 247 7)) = some (0 :: List.replicate 247 7)
      ∧ answer .echo (ask bench 0x01 (List.replicate 248 7)) = some [0x21] := by decide +kernel

theorem witness_StatusReportsAndUnknownKindsAreRefused :
    (req 0x02 []).payload = [] ∧ (req 0x02 [0]).payload ≠ [] ∧ (req 0x80 []).kind ∉ requestKinds
      ∧ (req 0x04 []).kind ∉ requestKinds ∧ 128 ≤ (req 0x80 []).kind.toNat := by decide

theorem test_status_and_unknown_kind :
    answer .status (ask bench 0x02 [])
        = some [0, 0x16, 0x10, 1, 0, 0, 0, 0, 0, 1, 0, 0, 0, 0, 8, 0, 0, 0, 0, 0, 0]
      ∧ answer .unknownRequestKind (ask bench 0x82 []) = some [0x20] := by decide

theorem witness_WrongLengthsAreRefusedBadLength :
    lengthAllowed 0x30 (List.replicate 10 0) = false ∧ lengthAllowed 0x30 (List.replicate 11 0) = true
      ∧ lengthAllowed 0x60 [1, 0, 1, 0] = false ∧ lengthAllowed 0x60 [1, 0, 1, 0, 7] = true
      ∧ lengthAllowed 0x61 [0, 0, 0] = false ∧ lengthAllowed 0x61 [0, 0, 0, 7] = true
      ∧ lengthAllowed 0x72 [41] = false ∧ lengthAllowed 0x72 [0] = true ∧ lengthAllowed 0x71 [0] = false
      ∧ (List.replicate 11 (0 : Byte))[10]? = some 0
      ∧ lengthAllowed 0x30 ((List.replicate 130 0).set 10 17) = true
      ∧ ((List.replicate 130 (0 : Byte)).set 10 17)[10]? = some 17 ∧ 16 < (17 : Byte).toNat
      ∧ lengthAllowed 0x03 [] = true ∧ (0x30 : Byte) ∈ requestKinds := by decide +kernel

theorem test_restart_is_pending :
    (afterCommand .restart (ask bench 0x03 [])).link.restartPending = true
      ∧ (afterCommand .restart (ask bench 0x03 [])).link.mtx.map (fun m => m.restart) = some true
      ∧ (afterCommand .restart (ask bench 0x03 [1])).link.restartPending = false := by decide

/-! ### Ports -/

theorem witness_SetFramingAppliesToLaterFrames :
    (req 0x10 [0, 64]).payload = [0, 64] ∧ 64 ≤ ((0 : Byte) ++ (64 : Byte) : Half).toNat
      ∧ ((0 : Byte) ++ (63 : Byte) : Half).toNat < 64 ∧ (req 0x10 [0]).payload.length ≠ 2
      ∧ (Ingress.afterReset true).tracker = .outside
      ∧ ({ Ingress.afterReset true with tracker := .discard } : Ingress).tracker = .discard
      ∧ ({ Ingress.afterReset true with tracker := .inside 3 64 9 true } : Ingress).tracker
          = .inside 3 64 9 true := by
  decide

theorem test_set_framing :
    (afterCommand .setFraming (ask bench 0x10 [0, 64])).maxframe = 64
      ∧ (afterCommand .setFraming (ask bench 0x10 [0xFF, 0xFF])).maxframe = 65535
      ∧ answer .setFraming (ask bench 0x10 [0, 63]) = some [0x22] := by decide

theorem witness_SetPortReplacesThreeSettings :
    (req 0x11 [15, 2, 1, 1]).payload = [15, 2, 1, 1] ∧ (15 : Byte) = natByte (15 : Port).val
      ∧ TxenMode.off.code = 2 ∧ IngressMode.verify.code = 1 ∧ (1 : Byte) ≠ 0
      ∧ 16 ≤ (16 : Byte).toNat ∧ 3 ≤ (3 : Byte).toNat ∧ 2 ≤ (2 : Byte).toNat
      ∧ (withPort { carryPort with txen := .on }).ports[(2 : Port)].txen = .on
      ∧ (withPort { carryPort with txen := .off }).ports[(2 : Port)].txen = .off
      ∧ (withPort carryPort).ports[(2 : Port)].txen = .auto := by decide

theorem test_set_port :
    (afterCommand .setPort (ask bench 0x11 [15, 1, 0xFF, 1])).ports[(15 : Port)]
        = { Ingress.afterReset false with txen := .on, threshold := 0xFF, mode := .verify }
      ∧ answer .setPort (ask bench 0x11 [15, 1, 0, 1]) = some [0x22] := by decide

theorem test_transmit_enable_follows_the_strap :
    let s := withEgress (onSource .fill .steady false none)
    s.txenHigh 1 = true ∧ s.txenHigh 2 = false
      ∧ ({ s with straps := { lrate := 0, tepHigh := true } } : State).txenHigh 1 = false := by
  decide

theorem witness_PortStatusReportsThenClears :
    (req 0x12 [15, 1]).payload = [15, 1] ∧ (15 : Byte) = natByte (15 : Port).val
      ∧ 16 ≤ (16 : Byte).toNat ∧ 2 ≤ (2 : Byte).toNat := by decide

theorem test_port_status :
    let s := ask (withPort (carryPort.bump .slips)) 0x12 [2, 1]
    (answer .portStatus s).map (fun a => a.take 6) = some [0, 3, 1, 0, 0, 0]
      ∧ (afterCommand .portStatus s).ports[(2 : Port)] = carryPort := by decide

theorem test_port_status_of_a_frame_in_progress :
    ({ carryPort with
        sd := false, traffic := some 1, tracker := .discard, lastWindow := 258, txen := .off
        mode := .verify, expected := some 0x0102 } : Ingress).statusResult.take 13
      = [3, 0, 1, 2, 0, 1, 2, 2, 16, 1, 1, 1, 2] := by decide

theorem witness_SignalDetectMovesTheLine :
    (withPort carryPort).phase = .run ∧ (withPort carryPort).ports[(2 : Port)].sd = true
      ∧ bench.ports[(2 : Port)].sd = false
      ∧ (withPort { carryPort with sdLoss := some 0 }).ports[(2 : Port)].sdLoss.isSome
      ∧ (withPort { carryPort with sdLoss := some 0 }).ports[(2 : Port)].line.fit = true
      ∧ (∀ e : Port, (withPort { carryPort with sdLoss := some 0 }).guards[e] = none)
      ∧ (withPort { carryPort with sdLoss := some 0 }).group.plan = none := by decide

theorem test_signal_loss :
    let t := afterCommand (.sdLossTimerExpiry 2)
      (withPort { carryPort with sdLoss := some 0, tracker := .inside 1 64 0 true })
    t.ports[(2 : Port)].line = .dark ∧ t.ports[(2 : Port)].abortDue = true
      ∧ t.conds[(6 : CondId)].count = 1
      ∧ (afterCommand (.sdAssert 2) bench).ports[(2 : Port)].line = .hunt
      ∧ (afterCommand (.sdDeassert 2) (withPort carryPort)).ports[(2 : Port)].sdLoss = some 100 := by
  decide

theorem witness_SignalDetectMovesTheLine_receivers :
    (guarded .watching .carry .carry).guardHears 1 2 .carry .dark = some .primaryFails
      ∧ (guarded .watching .carry .carry).guardHears 1 3 .carry .hunt = some .standbyFails
      ∧ ((guarded .watching .carry .carry).lineParts 2 .carry .dark).map List.length = [1, 1]
      ∧ ((bench.setGroup { bench.group with
          plan := some { id := 9, applying := false, ready := .sourcesFit, sources := [8] }
          }).lineParts 8 .noisy .quiet).map List.length = [1]
      ∧ LineState.carry ≠ bench.ports[(2 : Port)].line := by decide

theorem test_a_loss_inside_a_frame_counts_a_cut :
    let t := afterCommand (.sdLossTimerExpiry 2) (withPort
      { carryPort with sdLoss := some 0, tracker := .inside 1 64 0 true, slipPending := true })
    t.ports[(2 : Port)].counters[Counter.framesCut.index] = 1
      ∧ t.ports[(2 : Port)].counters[Counter.slips.index] = 0
      ∧ t.ports[(2 : Port)].slipPending = false := by decide

def huntPort : Ingress := { Ingress.afterReset true with searchRun := 2 }
def fullPort (t : Tracker) : Ingress :=
  { carryPort with buffer := .char .opn :: List.replicate 31 (.char .fill), tracker := t }

theorem witness_CharacterReceivedByLineState :
    bench.phase = .run ∧ bench.ports[(2 : Port)].line = .dark
      ∧ (withPort huntPort).ports[(2 : Port)].line = .hunt
      ∧ (withPort huntPort).ports[(2 : Port)].searchRun = 2
      ∧ (withPort { huntPort with searchRun := 1 }).ports[(2 : Port)].searchRun ≠ 2
      ∧ (withPort { carryPort with violationRun := 2 }).ports[(2 : Port)].violationRun ≠ 3
      ∧ (withPort { carryPort with violationRun := 3 }).ports[(2 : Port)].violationRun = 3
      ∧ (withPort carryPort).ports[(2 : Port)].line.delivering = true
      ∧ (withPort { carryPort with
          buffer := List.replicate 31 (.char .fill) }).ports[(2 : Port)].level < 32
      ∧ (withPort (fullPort .outside)).ports[(2 : Port)].level = 32
      ∧ (withPort (fullPort .outside)).ports[(2 : Port)].tracker.isInside = false
      ∧ (withPort (fullPort (.inside 0 64 0 true))).ports[(2 : Port)].tracker.isInside = true := by
  decide

theorem test_characters_by_line_state :
    (afterCommand (.characterReceived 2 .fill false) (withPort huntPort)).ports[(2 : Port)].line = .quiet
    ∧ (afterCommand (.characterReceived 2 .fill true) (withPort huntPort)).ports[(2 : Port)].searchRun = 1
    ∧ (afterCommand (.characterReceived 2 .violation false)
        (withPort { carryPort with violationRun := 3 })).ports[(2 : Port)].line = .hunt
    ∧ (afterCommand (.characterReceived 2 .shut false)
        (withPort (fullPort .outside))).ports[(2 : Port)].buffer.getLast? = some .slip := by
  decide

theorem test_violations_before_the_fourth :
    let t := afterCommand (.characterReceived 2 .violation false)
      (withPort { carryPort with violationRun := 2 })
    t.ports[(2 : Port)].violationRun = 3 ∧ t.ports[(2 : Port)].buffer = [.char .violation]
      ∧ t.ports[(2 : Port)].counters[Counter.violations.index] = 1
      ∧ t.ports[(2 : Port)].window = some { pos := 0, count := 1 }
      ∧ t.ports[(2 : Port)].line = .carry := by decide

/-- Twelve FILL and then a frame stand in the buffer. -/
def readPort (items : List BufItem) (t : Tracker) : Ingress :=
  { carryPort with buffer := items ++ List.replicate 12 (.char .fill), tracker := t, line := .quiet }

theorem witness_TrackerReadOffersOneCharacter :
    (withPort (readPort [] .outside)).phase = .run
      ∧ (withPort (readPort [] .outside)).sourceOpen (.ingress 2) = true
      ∧ ((readPort [] .outside).readOnce 64).event = .none
      ∧ ((readPort [.char .mark] .outside).readOnce 64).event = .mark
      ∧ ((readPort [.char .shut] (.inside 3 64 9 true)).readOnce 64).event = .goodFrame 3 9 true
      ∧ ((readPort [.char .shut] (.inside 3 64 9 true)).readOnce 64).after.mode = .normal
      ∧ ((readPort [.char .shut] (.inside 3 64 9 true)).readOnce 64).after.line.delivering = true := by
  decide

/-- Twenty-one characters, the first of them `c`. -/
def crowded (c : Character) (t : Tracker) : Ingress :=
  { carryPort with buffer := .char c :: .char (.data 7) :: List.replicate 19 (.char .fill), tracker := t }

theorem witness_TrackerReadOffersOneCharacter_read_side :
    (crowded .fill .outside).abortDue = false ∧ (crowded .fill .outside).line.delivering = true
      ∧ (crowded .fill .outside).slipPending = false ∧ (crowded .fill .outside).priming = false
      ∧ (crowded .fill .outside).level = 21 ∧ (readPort [] .outside).level = 12
      ∧ (fullPort (.inside 0 64 0 true)).tracker.isInside = true ∧ carryPort.buffer = []
      ∧ carryPort.tracker.isInside = false ∧ Ingress.level carryPort = 0
      ∧ (Ingress.afterReset true).line.delivering = false
      ∧ ((withPort { readPort [.char .mark] .outside with readDue := true }).setPort 3
          { carryPort with readDue := true }).ports[(2 : Port)].readDue = true
      ∧ (withPort (readPort [.char .mark] .outside)).ports[(2 : Port)].readDue = false := by decide

theorem test_what_the_read_side_hands_over :
    (crowded .fill .outside).nextItem.1 = .char (.data 7)
      ∧ (crowded .fill .outside).nextItem.2.length = 19
      ∧ (crowded .mark .outside).nextItem.1 = .char .mark ∧ (crowded .mark .discard).nextItem.1 = .char (.data 7)
      ∧ (crowded .opn .discard).nextItem.1 = .char .opn
      ∧ (crowded .fill (.inside 0 64 0 true)).nextItem.1 = .char .fill
      ∧ (readPort [] .outside).nextItem.1 = .char .fill
      ∧ Ingress.nextItem { carryPort with buffer := [.char .opn] } = (.inserted, [.char .opn])
      ∧ Ingress.nextItem { carryPort with buffer := [.slip] } = (.slipMark, [])
      ∧ Ingress.nextItem { carryPort with tracker := .inside 0 64 0 true } = (.slip, [])
      ∧ Ingress.nextItem { crowded .fill .outside with priming := true }
          = (.inserted, (crowded .fill .outside).buffer) := by decide

theorem test_good_frame_makes_carry :
    let t := afterCommand (.trackerRead 2) (withPort (readPort [.char .shut] (.inside 3 64 9 true)))
    t.ports[(2 : Port)].line = .carry ∧ t.ports[(2 : Port)].clean = .shut
      ∧ t.ports[(2 : Port)].counters[Counter.framesGood.index] = 1 := by decide

theorem test_an_egress_sends_what_its_ingress_reads :
    let s := (withPort (readPort [.char .opn] .outside)).setEgress 1
      (onSource (.ingress 2) .steady false none)
    (afterCommand (.trackerRead 2) s).egresses[(1 : Port)].line = some .opn
      ∧ (afterCommand (.trackerRead 2) s).egresses[(1 : Port)].inside = true := by decide +kernel

theorem witness_FrameTrackerTable :
    (readPort [] .outside).tracker = .outside
      ∧ (readPort [] (.inside 63 64 0 true)).tracker = .inside 63 64 0 true ∧ 63 < 64
      ∧ (readPort [] (.inside 64 64 0 true)).tracker = .inside 64 64 0 true ∧ 64 ≤ 64
      ∧ (readPort [] .discard).tracker = .discard := by decide

theorem test_runaway_frame :
    ((readPort [] (.inside 64 64 0 true)).track 64 (.char (.data 1))).emitted = .abort
      ∧ ((readPort [] (.inside 63 64 0 true)).track 64 (.char (.data 1))).emitted = .data 1 := by
  decide

/-- Bytes 0, 1 and 2 of a frame of sequence number 0102H, and a byte that does not agree. -/
theorem test_bytes_are_checked_as_they_pass :
    ((readPort [] (.inside 0 64 0 true)).track 64 (.char (.data 1))).after.tracker
        = .inside 1 64 0x0100 true
      ∧ ((readPort [] (.inside 1 64 0x0100 true)).track 64 (.char (.data 2))).after.tracker
        = .inside 2 64 0x0102 true
      ∧ ((readPort [] (.inside 2 64 0x0102 true)).track 64 (.char (.data 0x10))).after.tracker
        = .inside 3 64 0x0102 true
      ∧ ((readPort [] (.inside 2 64 0x0102 true)).track 64 (.char (.data 0x11))).after.tracker
        = .inside 3 64 0x0102 false := by decide

theorem test_lost_open_between_frames :
    let r := (readPort [.lostOpen] .outside).readOnce 64
    r.emitted = .fill ∧ r.after.tracker = .discard
      ∧ r.after.counters[Counter.slips.index] = 1 ∧ r.after.counters[Counter.framesCut.index] = 1 := by
  decide

theorem witness_CleanStreamIsWellFormed :
    (readPort [] .outside).Wf ∧ (readPort [] .outside).betweenFrames = true
      ∧ (readPort [] (.inside 0 64 0 true)).Wf
      ∧ (readPort [] (.inside 0 64 0 true)).betweenFrames = false := by
  unfold Ingress.Wf
  decide

def windowed (count : Nat) (line : LineState) (quiet : Nat) : Ingress :=
  { carryPort with window := some { pos := 4096, count := count }, line := line, quietWindows := quiet
                   traffic := some 0 }

theorem witness_NoiseWindowAndTrafficTimer :
    (withPort (windowed 16 .quiet 0)).phase = .run
      ∧ (withPort (windowed 16 .quiet 0)).ports[(2 : Port)].window = some { pos := 4096, count := 16 }
      ∧ (withPort (windowed 16 .quiet 0)).ports[(2 : Port)].line.delivering = true
      ∧ (windowed 16 .quiet 0).threshold.toNat ≤ 16 ∧ ¬ (windowed 15 .quiet 0).threshold.toNat ≤ 15
      ∧ (windowed 15 .noisy 2).quietWindows ≠ 3 ∧ (windowed 15 .noisy 3).quietWindows = 3
      ∧ (windowed 15 .noisy 3).line = .noisy ∧ (windowed 15 .quiet 0).line ≠ .noisy
      ∧ (withPort (windowed 15 .noisy 3)).ports[(2 : Port)].traffic.isSome := by decide

theorem test_noise_window :
    (afterCommand (.noiseWindowEnd 2) (withPort (windowed 16 .quiet 0))).ports[(2 : Port)].line = .noisy
    ∧ (afterCommand (.noiseWindowEnd 2) (withPort (windowed 15 .noisy 3))).ports[(2 : Port)].line = .carry
    ∧ (afterCommand (.noiseWindowEnd 2) (withPort (windowed 15 .noisy 2))).ports[(2 : Port)].line = .noisy
    ∧ (afterCommand (.trafficTimerExpiry 2) (withPort (windowed 0 .carry 0))).ports[(2 : Port)].line
        = .quiet := by decide

def verifying (expected : Option Half) : Ingress :=
  { carryPort with mode := .verify, expected := expected }

theorem witness_PatternCheckCountsAndExpects :
    (verifying none).mode = .verify ∧ (verifying none).expected = none
      ∧ (verifying (some 0xFFFF)).expected = some 0xFFFF ∧ (0xFFFF : Half) ≠ 0 ∧ (8 : Nat) ≠ 9 := by
  decide

theorem test_pattern_check_wraps :
    ((verifying (some 0xFFFF)).patternCheck 8 8 0xFFFF true).expected = some 0
      ∧ ((verifying (some 0xFFFF)).patternCheck 8 8 0xFFFF true).counters[Counter.patternGaps.index] = 0
      ∧ ((verifying (some 5)).patternCheck 8 8 0xFFFF true).counters[Counter.patternGaps.index] = 1 := by
  decide

/-! ### The connection map -/

theorem witness_SameSourceSettlesCleanAtOnce :
    (withEgress (onSource .fill .steady true none)).egresses[(1 : Port)].state = .steady
      ∧ (withEgress (onSource .fill .steady true none)).egresses[(1 : Port)].change = none
      ∧ (toSource .fill .force).target
          = (withEgress (onSource .fill .steady true none)).egresses[(1 : Port)].current
      ∧ bench.egresses[(1 : Port)].state = .off ∧ bench.egresses[(1 : Port)].change = none
      ∧ (toSource .hold .clean).target = bench.egresses[(1 : Port)].current := by decide

theorem witness_AnotherSourceLeavesDrainsOrCuts :
    (withEgress (onSource (.ingress 2) .steady true none)).egresses[(1 : Port)].inside = true
      ∧ (withEgress (onSource .inject .steady true none)).egresses[(1 : Port)].current = .inject
      ∧ (withEgress (onSource .inject .steady true none)).egresses[(1 : Port)].state = .steady
      ∧ bench.egresses[(1 : Port)].inside = false ∧ bench.egresses[(1 : Port)].state = .off
      ∧ (toSource (.ingress 5) .force).target ≠ .inject ∧ (toSource (.ingress 5) .force).policy = .force
      ∧ (toSource (.ingress 5) .clean).policy = .clean ∧ (toSource .hold .clean).target = .hold
      ∧ bench.betweenFrames 1 (.ingress 2) = true ∧ (toSource (.ingress 2) .clean).target ≠ .hold
      ∧ (withPort (readPort [] (.inside 0 64 0 true))).betweenFrames 1 (.ingress 2) = false := by
  decide

theorem test_a_change_drains_or_cuts :
    ((withEgress (onSource (.ingress 2) .steady true none)).takeChange 1
      (toSource .fill .clean)).egresses[(1 : Port)].state = .draining
    ∧ ((withEgress (onSource (.ingress 2) .steady true none)).takeChange 1
      (toSource .fill .force)).egresses[(1 : Port)].line = some .abort
    ∧ ((mtxBusy (withEgress (onSource (.ingress 2) .steady true none))).takeChange 1
      (toSource .fill .force)).notices.entries.map (fun n => n.body)
        = [.settled 1 7 .fill .forced false] := by decide

/-- Leaving OFF sends FILL on FILL and in JOINING (R120); on a target that is between frames the first character is
the target's next one (R32). -/
theorem test_leaving_off :
    let s := withPort (readPort [.char .opn] .outside)
    let t := s.takeChange 1 (toSource (.ingress 2) .clean)
    (bench.takeChange 1 (toSource .fill .clean)).egresses[(1 : Port)].line = some .fill
      ∧ t.egresses[(1 : Port)].state = .steady ∧ t.egresses[(1 : Port)].line = none
      ∧ (afterCommand (.trackerRead 2) t).egresses[(1 : Port)].line = some .opn
      ∧ ((withPort (readPort [] (.inside 0 64 0 true))).takeChange 1
          (toSource (.ingress 2) .clean)).egresses[(1 : Port)]
          = { onSource .hold .joining false (some (toSource (.ingress 2) .clean)) with line := some .fill } := by
  decide +kernel

def draining (src : Source) (held : Option Character) (deadline : Option Nat) : Egress :=
  { onSource src .draining true (some { toSource .fill .clean with deadline := deadline }) with
    held := held }
def joiningTo (src : Source) : Egress :=
  onSource (.ingress 2) .joining false (some (toSource src .clean))

theorem witness_ChangeInFlightIsSuperseded :
    (withEgress (joiningTo .pattern)).egresses[(1 : Port)].change = some (toSource .pattern .clean)
      ∧ (withEgress (joiningTo .pattern)).egresses[(1 : Port)].state = .joining
      ∧ (withEgress (draining (.ingress 2) none none)).egresses[(1 : Port)].state = .draining
      ∧ (toSource (.ingress 2) .clean).target
          = (withEgress (draining (.ingress 2) none none)).egresses[(1 : Port)].current
      ∧ (toSource .pattern .force).target
          ≠ (withEgress (draining (.ingress 2) none none)).egresses[(1 : Port)].current
      ∧ (withEgress (draining (.ingress 2) none none)).egresses[(1 : Port)].held = none := by
  decide

theorem witness_ChangeInFlightIsSuperseded_held :
    (withEgress (draining (.ingress 2) (some .shut) none)).egresses[(1 : Port)].held = some .shut
      ∧ (withEgress (draining .inject (some .shut) none)).egresses[(1 : Port)].current = .inject
      ∧ (withEgress (draining .inject (some (.data 7)) (some 0))).egresses[(1 : Port)].held
          = some (.data 7)
      ∧ (withEgress (draining (.ingress 2) (some (.data 7)) (some 0))).egresses[(1 : Port)].current
          ≠ .inject
      ∧ (toSource .pattern .clean).deadline ≠ some 0 ∧ isTerminator .shut = true
      ∧ (toSource .pattern .clean).target ≠ .inject
      ∧ (toSource .inject .clean).target
          = (withEgress (draining .inject none none)).egresses[(1 : Port)].current := by decide

theorem test_superseding :
    let t := (mtxBusy (withEgress (draining (.ingress 2) none none))).takeChange 1 (toSource (.ingress 2) .force)
    t.egresses[(1 : Port)].state = .steady
      ∧ t.notices.entries.map (fun n => n.body)
          = [.settled 1 7 .fill .superseded false, .settled 1 7 (.ingress 2) .clean true] := by
  decide

/-- An assembly context of another target and a FREE one; and MTX idle with nothing waiting, and busy. -/
theorem witness_ChangeOnOneEgressDisturbsNoOther :
    let c : Context :=
      { target := 2, id := 7, total := 9, notify := false, bytes := [1], lastFragment := 0, timer := 5 }
    let s := bench.setPool (bench.pool.setContext 0 (some c))
    s.pool.contexts[(0 : ContextId)] = some c ∧ c.target ≠ 1 ∧ s.pool.contexts[(1 : ContextId)] = none
      ∧ (2 : Port) ≠ 1 ∧ s.phase = .run
      ∧ (s.link.refusals = [] ∧ s.link.executed = [] ∧ s.notices.entries = []) ∧ (mtxBusy s).link.mtx.isSome := by
  decide

theorem witness_SettleGoesToTheRequester :
    (toSource .fill .clean).requester = .connect 7 true
      ∧ ({ toSource .fill .clean with requester := .connect 7 false } : Change).requester
          = .connect 7 false
      ∧ ({ toSource .fill .clean with requester := .plan 9 } : Change).requester = .plan 9
      ∧ ({ toSource .fill .clean with requester := .guard 0 } : Change).requester = .guard 0
      ∧ (guarded .watching .carry .carry).guards[(1 : Port)].map (fun g => g.ident) = some 0
      ∧ bench.guards[(1 : Port)].map (fun g => g.ident) ≠ some 0 := by decide

def guardBytes : List Byte := [2, 0x93, 0, 5, 0, 10]

theorem witness_ConnectReplacesEntryAndStartsChange :
    (req 0x20 ([1] ++ guardBytes ++ [0, 0, 1])).payload = [1, 2, 0x93, 0, 5, 0, 10, 0, 0, 1]
      ∧ 16 ≤ (16 : Byte).toNat ∧ Entry.decode 20 0 0 0 0 0 = none ∧ 2 ≤ (2 : Byte).toNat
      ∧ (1 : Byte) = natByte (1 : Port).val ∧ (1 : Byte).toNat < 2
      ∧ Entry.decode 2 0x93 0 5 0 10 = some (guardEntry fields)
      ∧ Entry.decode 2 0x93 0 0 0 10 = some (guardEntry { fields with holdOff := 0 })
      ∧ Entry.decode 16 0x40 0 0 0 0 = some { source := .fill, policy := .force, guard := none }
      ∧ (bench.setClaim 1 (some 9)).claims[(1 : Port)].isSome ∧ bench.claims[(1 : Port)] = none
      ∧ fields.holdOff ≠ 0
      ∧ (withPort carryPort).ports[(2 : Port)].line.well false = true
      ∧ bench.ports[(2 : Port)].line.well false = false := by decide

/-- With MTX idle the SETTLED notice starts before the reply is placed (R163, R166). -/
theorem test_connect :
    let s := ask bench 0x20 ([1] ++ guardBytes ++ [0, 0, 1])
    let t := afterCommand .connect s
    t.egresses[(1 : Port)].entry = guardEntry fields
      ∧ t.guards[(1 : Port)].map (fun g => g.state) = some (.holdoff 5000000)
      ∧ t.egresses[(1 : Port)].state = .steady
      ∧ (sends .connect s).map (fun b => b.drop 6) = some [1, 1, 2, 8, 1] ∧ answer .connect s = some [0]
      ∧ (afterCommand .connect (mtxBusy s)).notices.entries.map (fun n => n.body)
          = [.settled 1 1 (.ingress 2) .clean true] := by
  decide

theorem test_connect_refusals :
    answer .connect (ask (bench.setClaim 1 (some 9)) 0x20 ([1] ++ guardBytes ++ [0, 0, 1]))
        = some [0x30]
    ∧ answer .connect (ask bench 0x20 ([1, 2, 0x92, 0, 5, 0, 10, 0, 0, 1])) = some [0x22] := by
  decide

theorem witness_DrainsAndJoinsComplete :
    (withEgress (draining (.ingress 2) (some .shut) none)).phase = .run
      ∧ (withEgress (draining (.ingress 2) (some .shut) none)).egresses[(1 : Port)].state = .draining
      ∧ (withEgress (draining (.ingress 2) (some .shut) none)).egresses[(1 : Port)].held = some .shut
      ∧ (withEgress (draining (.ingress 2) (some .shut) none)).egresses[(1 : Port)].change
          = some (toSource .fill .clean)
      ∧ isTerminator .shut = true ∧ isTerminator .abort = true
      ∧ (withEgress (draining (.ingress 2) none (some 0))).egresses[(1 : Port)].current ≠ .inject
      ∧ (withEgress (draining .inject none (some 0))).egresses[(1 : Port)].current = .inject
      ∧ (withEgress (draining .inject (some .shut) none)).egresses[(1 : Port)].held = some .shut
      ∧ ({ toSource .fill .clean with deadline := some 0 } : Change).deadline.isSome
      ∧ (withEgress (joiningTo .pattern)).betweenFrames 1 (toSource .pattern .clean).target = true
      ∧ (withEgress (joiningTo .hold)).betweenFrames 1 (toSource .hold .clean).target = false := by
  decide

theorem test_drain_deadline_and_join :
    (afterCommand (.drainEnd 1)
      (withEgress (draining (.ingress 2) (some .shut) none))).egresses[(1 : Port)].line = some .shut
    ∧ (afterCommand (.deadlineExpiry 1)
      (withEgress (draining (.ingress 2) none (some 0)))).link.mtx.map
        (fun m => m.message.payload.drop 6) = some [1, 7, 16, 2, 0]
    ∧ (afterCommand (.joinComplete 1)
      (withEgress (joiningTo .pattern))).egresses[(1 : Port)].current = .pattern := by decide

/-- Egress 1 is to join `src`, which is between frames, with an OPEN next on ingress 2 and on PATTERN. -/
def joinDueOn (src : Source) : State :=
  ((withPort (readPort [.char .opn] .outside)).setPattern { bench.pattern with enable := true }).setEgress 1
    (onSource .hold .joining false (some (toSource src .clean)))

/-- A source is closed by a due join and by a character held back for a drain's end. -/
theorem witness_closed_sources :
    (joinDueOn (.ingress 2)).phase = .run ∧ (joinDueOn .pattern).phase = .run
      ∧ (joinDueOn (.ingress 2)).sourceOpen (.ingress 2) = false
      ∧ (joinDueOn .pattern).sourceOpen .pattern = false
      ∧ (withEgress (draining (.ingress 2) (some .shut) none)).phase = .run
      ∧ (withEgress (draining (.ingress 2) (some .shut) none)).sourceOpen (.ingress 2) = false
      ∧ (withEgress (draining .pattern (some .shut) none)).sourceOpen .pattern = false := by decide

/-- A due join comes before its target's next character, which is then the first one that the egress sends (R38). -/
theorem test_join_comes_before_the_next_character :
    (joinDueOn (.ingress 2)).sourceOpen (.ingress 2) = false
      ∧ (joinDueOn (.ingress 2)).sourceOpen .pattern = true
      ∧ (afterCommand (.trackerRead 2) (joinDueOn (.ingress 2))).ports[(2 : Port)]
          = (joinDueOn (.ingress 2)).ports[(2 : Port)]
      ∧ (afterCommand .patternFrameStart (joinDueOn .pattern)).pattern.phase = .idle
      ∧ (afterCommand (.trackerRead 2) (afterCommand (.joinComplete 1)
          (joinDueOn (.ingress 2)))).egresses[(1 : Port)].line = some .opn
      ∧ (afterCommand .patternFrameStart (afterCommand (.joinComplete 1)
          (joinDueOn .pattern))).egresses[(1 : Port)].line = some .opn := by decide +kernel

theorem witness_SelectorForwardsItsSource :
    (onSource .fill .steady false none).current ≠ .pattern
      ∧ (onSource .pattern .steady false none).current = .pattern
      ∧ (onSource .pattern .steady false none).state = .steady ∧ Egress.afterReset.state = .off
      ∧ (joiningTo .fill).state = .joining
      ∧ (draining .pattern none (some 0)).state = .draining
      ∧ (draining .pattern none (some 0)).current = .pattern
      ∧ (draining .pattern none (some 0)).held = none
      ∧ ({ toSource .fill .clean with deadline := some 0 } : Change).deadline = some 0
      ∧ (toSource .fill .clean).deadline = none
      ∧ ({ toSource .fill .clean with deadline := some 1 } : Change).deadline = some (0 + 1)
      ∧ Character.data 1 ≠ .shut ∧ Character.data 1 ≠ .abort
      ∧ (onSource .fill .steady false none).current = .fill
      ∧ (onSource .pattern .steady false none).current ≠ .fill := by decide

theorem test_a_drain_counts_down :
    ((draining .pattern none (some 1)).receive .pattern (.data 3)).change.map (fun c => c.deadline)
        = some (some 0)
      ∧ ((draining .pattern none (some 0)).receive .pattern (.data 3)).held = some (.data 3) := by
  decide

theorem witness_MapReadReportsAndChangesNothing :
    (req 0x21 []).payload = [] ∧ (req 0x21 [0]).payload ≠ [] := by decide

theorem test_map_record_of_a_guarded_egress :
    (guarded (.holdoff 150000) .carry .carry).mapRecord 1
      = [2, 0x93, 0, 5, 0, 10, 2, 2, 0xFF, 0, 1, 0, 0, 2, 0xFF] := by decide

/-- A guard timer that has run out reads as 1 ms until its expiry is taken (R180; log entry 31). -/
theorem test_map_record_of_a_timer_at_0 :
    ((guarded (.holdoff 0) .carry .carry).mapRecord 1).drop 10 = [1, 0, 0, 1, 0xFF] := by decide

theorem witness_EntryRecordsRoundTrip :
    (guardEntry { fields with holdOff := 1000, restore := .revert 900 }).valid = true
      ∧ (guardEntry { fields with holdOff := 1001 }).valid = false
      ∧ Entry.decode 2 0x93 0 5 0 10 = some (guardEntry fields) := by decide

theorem test_entry_records_that_are_not_valid :
    Entry.decode 2 0x93 0 5 0 0 = none ∧ Entry.decode 2 0x83 0 5 0 1 = none
      ∧ Entry.decode 2 0x01 0 0 0 0 = none ∧ Entry.decode 16 0x93 0 5 0 10 = none := by decide

/-! ### Guards -/

theorem witness_GuardControlAppliesOverrides :
    (req 0x22 [1, 0]).payload = [1, 0] ∧ 16 ≤ (16 : Byte).toNat ∧ 3 ≤ (3 : Byte).toNat
      ∧ (1 : Byte) = natByte (1 : Port).val ∧ (2 : Byte).toNat < 3
      ∧ bench.egresses[(1 : Port)].entry.guard = none
      ∧ (guarded .watching .carry .carry).egresses[(1 : Port)].entry.guard = some fields
      ∧ (guarded .watching .carry .carry).guards[(1 : Port)]
          = some { ident := 0, state := .watching, last := none }
      ∧ ((guarded .watching .carry .carry).setClaim 1 (some 9)).claims[(1 : Port)].isSome
      ∧ (guarded .watching .carry .carry).claims[(1 : Port)] = none
      ∧ GuardState.onStandby.selection = some .standby ∧ GuardState.watching.selection = some .primary
      ∧ GuardState.watching ≠ .locked ∧ GuardState.onStandby ≠ .forced
      ∧ (guarded .locked .carry .carry).primaryWell 1 fields = true
      ∧ (guarded .locked .dark .carry).primaryWell 1 fields = false ∧ fields.holdOff ≠ 0 := by
  decide

theorem witness_GuardControlAppliesOverrides_clear :
    let s := (guarded .locked .dark .carry).setEgress 1
      { onSource (.ingress 2) .steady false none with entry := guardEntry { fields with holdOff := 0 } }
    s.egresses[(1 : Port)].entry.guard = some { fields with holdOff := 0 }
      ∧ s.primaryWell 1 { fields with holdOff := 0 } = false ∧ s.standbyWell { fields with holdOff := 0 } = true
      ∧ (guarded .locked .dark .dark).standbyWell { fields with holdOff := 0 } = false
      ∧ answer .guardControl (ask s 0x22 [1, 2]) = some [0, 3, 1] := by decide

theorem test_guard_control :
    answer .guardControl (ask (guarded .watching .carry .carry) 0x22 [1, 1]) = some [0, 6, 1]
      ∧ answer .guardControl (ask (guarded .onStandby .carry .carry) 0x22 [1, 0]) = some [0, 5, 0]
      ∧ answer .guardControl (ask (guarded .forced .carry .carry) 0x22 [1, 2]) = some [0, 4, 1] := by
  decide

theorem witness_GuardSwitchHandsOverAChange :
    (guarded .watching .carry .carry).guards[(1 : Port)]
        = some { ident := 0, state := .watching, last := none }
      ∧ (guarded .watching .carry .carry).egresses[(1 : Port)].entry.guard = some fields := by
  decide

theorem witness_GuardTransitionTable :
    (guarded (.holdoff 0) .dark .carry).phase = .run
      ∧ (guarded (.holdoff 0) .dark .carry).standbyWell fields = true
      ∧ (guarded (.holdoff 0) .dark .dark).standbyWell fields = false
      ∧ (guarded (.restoreWait 0) .carry .carry).guards[(1 : Port)]
          = some { ident := 0, state := .restoreWait 0, last := none }
      ∧ fields.holdOff ≠ 0 ∧ ({ fields with holdOff := 0 } : GuardFields).holdOff = 0
      ∧ (guarded .onStandby .carry .dark).primaryWell 1 fields = true
      ∧ (guarded .onStandby .dark .dark).primaryWell 1 fields = false
      ∧ (∀ left, GuardState.watching ≠ .holdoff left)
      ∧ (∀ left, GuardState.watching ≠ .restoreWait left) := by
  refine ⟨?_, ?_, ?_, ?_, ?_, ?_, ?_, ?_, ?_, ?_⟩
  on_goal 9 => exact fun _ h => nomatch h
  on_goal 9 => exact fun _ h => nomatch h
  all_goals decide

theorem witness_GuardTransitionTable_hearing_and_evaluation :
    (guarded .onStandby .carry .carry).primaryWell 1 fields = true
      ∧ (guarded .onStandby .carry .carry).standbyWell fields = true
      ∧ (guarded .onStandby .carry .dark).standbyWell fields = false
      ∧ fields.restore = .revert 10 ∧ ({ fields with restore := .stay } : GuardFields).restore = .stay
      ∧ LineState.quiet.well false = true ∧ LineState.noisy.well false = false
      ∧ LineState.quiet.well true = false ∧ LineState.carry.well true = true
      ∧ (guarded .watching .carry .carry).egresses[(1 : Port)].entry.source = .ingress 2
      ∧ (guarded .watching .carry .carry).egresses[(1 : Port)].entry.source ≠ .ingress 3
      ∧ fields.standby = 3 ∧ fields.standby ≠ 4 := by decide

theorem test_guard_timers :
    let t := afterCommand (.holdOffExpiry 1) (guarded (.holdoff 0) .dark .carry)
    t.guards[(1 : Port)].map (fun g => g.state) = some .onStandby
      ∧ t.egresses[(1 : Port)].current = .ingress 3 ∧ t.conds[(21 : CondId)].count = 1
      ∧ (afterCommand (.waitToRestoreExpiry 1)
          (guarded (.restoreWait 0) .carry .carry)).guards[(1 : Port)].map (fun g => g.state)
          = some .watching := by decide

/-! ### Plans -/

def loadBytes (slotId : Byte) : List Byte := [slotId, 1, 0, 0, 0, 0, 0, 1, 0xF4, 1, 1, 4, 8, 0, 0, 0, 0, 0]

theorem witness_PlanLoadTakesTheLowestFreeSlot :
    (req 0x30 (loadBytes 9)).payload
        = 9 :: 1 :: 0 :: 0 :: 0 :: 0 :: 0 :: 1 :: 0xF4 :: 1 :: 1 :: [4, 8, 0, 0, 0, 0, 0]
      ∧ [4, 8, 0, 0, 0, 0, (0 : Byte)].length = 7 * (1 : Byte).toNat
      ∧ [4, 8, 0, 0, 0, (0 : Byte)].length ≠ 7 * (1 : Byte).toNat
      ∧ readPlan 0 1 0 0 0 500 1 1 [4, 8, 0, 0, 0, 0, 0] = none
      ∧ readPlan 9 1 0 0 0 500 1 1 [4, 8, 0, 0, 0, 0, 0]
          = some { planOf .loaded .fire none with groupWait := 0 }
      ∧ ([edit].map (·.egress)).Nodup ∧ ¬ ([edit, edit].map (·.egress)).Nodup
      ∧ (planned .loaded .fire none).plans[(0 : SlotId)] = some (planOf .loaded .fire none)
      ∧ (∀ k : SlotId, bench.plans[k] = none)
      ∧ (∀ k : SlotId, ({ bench with
          plans := Vector.replicate 8 (some (planOf .loaded .fire none)) } : State).plans[k] ≠ none) := by
  decide

theorem test_plan_load :
    answer .planLoad (ask (planned .loaded .fire none) 0x30 (loadBytes 8)) = some [0, 1]
      ∧ answer .planLoad (ask (planned .loaded .fire none) 0x30 (loadBytes 9)) = some [0x34]
      ∧ (afterCommand .planLoad (ask bench 0x30 (loadBytes 9))).plans[(0 : SlotId)]
          = some { planOf .loaded .fire none with groupWait := 0 } := by decide

/-- The request of test_plan_load as O38 writes it from the plan. -/
theorem witness_PlanLoadTakesTheLowestFreeSlot_written :
    loadBytes 9 = 9 :: Trigger.fire.code :: Trigger.fire.index :: 0 :: 0 :: 0 :: 0 :: 1 :: 0xF4
        :: flagByte true :: 1 :: [edit].flatMap (fun d => natByte d.egress.val :: d.entry.encode)
      ∧ (9 : Byte) ≠ 0 ∧ (1 : Byte).toNat = [edit].length ∧ 1 ≤ [edit].length ∧ [edit].length ≤ 16
      ∧ Trigger.fire.isGroup = false ∧ (readHalf 0 0).toNat = 0
      ∧ (Trigger.group .sourcesFit).isGroup = true ∧ (readHalf 0 1).toNat ≠ 0
      ∧ (∀ d ∈ [edit], d.entry.valid = true ∧ d.outcome = none) ∧ ([edit].map (·.egress)).Nodup
      ∧ bench.plans[(0 : SlotId)] = none := by decide

def groupTrigger : Trigger := .group .sourcesFit

theorem witness_PlanArmClaimsAndArms :
    (req 0x31 [9]).payload = [9] ∧ bench.findPlan 9 = none
      ∧ (planned .loaded .fire none).findPlan 9 = some (0, planOf .loaded .fire none)
      ∧ PlanState.armed ≠ .loaded ∧ groupTrigger.isGroup = true ∧ Trigger.fire.isGroup = false
      ∧ bench.group.membership.isMember = false
      ∧ (grouped (.member .lowIdle) false none).group.membership.isMember = true
      ∧ (planned .applying groupTrigger none).groupBusy = true ∧ bench.groupBusy = false
      ∧ (bench.setClaim 4 (some 3)).claims[(4 : Port)] = some 3
      ∧ (4 : Port) ∈ (planOf .loaded .fire none).edits.map (·.egress)
      ∧ (∀ e ∈ (planOf .loaded .fire none).edits.map (·.egress), bench.claims[e] = none)
      ∧ Trigger.fire ≠ .now := by decide

theorem test_plan_arm :
    answer .planArm (ask (planned .loaded .fire none) 0x31 [9]) = some [0, 2]
      ∧ (afterCommand .planArm (ask (planned .loaded .fire none) 0x31 [9])).claims[(4 : Port)] = some 9
      ∧ answer .planArm (ask ((planned .loaded .fire none).setClaim 4 (some 3)) 0x31 [9])
          = some [0x31, 4, 3]
      ∧ answer .planArm (ask (planned .loaded .now none) 0x31 [9]) = some [0, 3] := by decide

/-- A NOW plan is armed and fires at once, its FIRED notice started before the reply (R76, R85, R166). -/
theorem witness_PlanArmClaimsAndArms_now :
    (planned .loaded .now none).findPlan 9 = some (0, planOf .loaded .now none)
      ∧ (planOf .loaded .now none).trigger = .now
      ∧ (∀ e ∈ (planOf .loaded .now none).edits.map (·.egress), (planned .loaded .now none).claims[e] = none)
      ∧ (afterCommand .planArm (ask (planned .loaded .now none) 0x31 [9])).notices.next = 2
      ∧ (afterCommand .planArm (ask (planned .loaded .now none) 0x31 [9])).link.executed.length = 1 := by
  decide

theorem test_group_plan_arms_and_releases_grdy :
    let s := ((grouped (.member .lowIdle) false none).setPlan 0
      (some (planOf .loaded groupTrigger none))).setPort 8 carryPort
    (afterCommand .planArm (ask s 0x31 [9])).group.membership = .member (.released none)
      ∧ answer .planArm (ask (planned .loaded groupTrigger none) 0x31 [9]) = some [0x39] := by
  decide

theorem witness_PlanArmClaimsAndArms_members :
    (grouped (.member .lowIdle) true none).group.membership = .member .lowIdle
      ∧ (grouped (.member (.hold 5)) true none).group.membership ≠ .member .lowIdle
      ∧ (guarded .watching .carry .carry).guards[(1 : Port)].isSome
      ∧ (((guarded .onStandby .carry .carry).claim 9 1).guards[(1 : Port)].map fun g => g.state)
          = some (.suspended .standby .none)
      ∧ (((guarded .locked .carry .carry).claim 9 1).guards[(1 : Port)].map fun g => g.state)
          = some (.suspended .primary .locked) := by decide

theorem witness_FireHandsOverEveryEdit :
    (planned .armed .fire none).plans[(0 : SlotId)] = some (planOf .armed .fire none)
      ∧ (planned .loaded .fire none).plans[(0 : SlotId)] = some (planOf .loaded .fire none)
      ∧ ((planOf .armed .fire none).edits.map (·.egress)).Nodup
      ∧ (planOf .armed .fire none).fireNotice = true
      ∧ (mtxBusy (planned .armed .fire none)).notices.entries.length < 32
      ∧ (mtxBusy (planned .armed .fire none)).link.mtx.isSome
      ∧ (planned .armed .fire none).findPlan 9 = some (0, planOf .armed .fire none)
      ∧ (4 : Port) ∈ (planOf .armed .fire none).edits.map (·.egress)
      ∧ (5 : Port) ∉ (planOf .armed .fire none).edits.map (·.egress)
      ∧ ((planned .armed (.mark 2) none).fireWaiting (.mark 3)).plans[(0 : SlotId)]
          = some (planOf .armed (.mark 2) none)
      ∧ ((planned .loaded (.mark 2) none).fireWaiting (.mark 2)).plans[(0 : SlotId)]
          = some (planOf .loaded (.mark 2) none) := by decide

theorem test_plan_fire :
    let t := afterCommand .planFire (ask (planned .armed (.sense 1) none) 0x32 [9])
    t.plans[(0 : SlotId)].map (fun p => p.state) = some .applying
      ∧ t.egresses[(4 : Port)].state = .steady ∧ t.egresses[(4 : Port)].planSettle.isSome
      ∧ answer .planFire (ask (planned .armed (.sense 1) none) 0x32 [9]) = some [0, 3]
      ∧ answer .planFire (ask (planned .armed groupTrigger none) 0x32 [9]) = some [0x3A] := by
  decide

theorem test_an_edit_hands_over_the_plans_change :
    let s := withEgress (onSource .fill .steady true none)
    ((s.handEdit 9 500 { edit with egress := 1 }).egresses[(1 : Port)].change
        = some { target := .ingress 8, policy := .clean, deadline := some 500, requester := .plan 9
                 cut := .none })
      ∧ (s.handEdit 9 0 { edit with egress := 1 }).egresses[(1 : Port)].change.bind
          (fun c => c.deadline) = none := by decide

theorem test_a_mark_fires_its_plan :
    let s := (planned .armed (.mark 2) none).setPort 2 (readPort [.char .mark] .outside)
    (afterCommand (.trackerRead 2) s).plans[(0 : SlotId)].map (fun p => p.state) = some .applying := by
  decide +kernel

/-- While ingress 3 has its read of this character time still to make, the fire waits for it (R81; log entry 34). -/
theorem test_the_fire_follows_the_character_time :
    let s := ((planned .armed (.mark 2) none).setPort 2
      { readPort [.char .mark] .outside with readDue := true }).setPort 3 { carryPort with readDue := true }
    let t := afterCommand (.trackerRead 2) s
    let u := afterCommand (.trackerRead 3) t
    t.ports[(2 : Port)].markDue = true ∧ t.plans[(0 : SlotId)].map (fun p => p.state) = some .armed
      ∧ u.ports[(2 : Port)].markDue = false ∧ u.plans[(0 : SlotId)].map (fun p => p.state) = some .applying
      ∧ t.readFires 3 = true ∧ s.readFires 2 = false := by
  decide +kernel

theorem witness_CancelAndExpiryLetGoOfThePlan :
    (planned .armed .fire (some 0)).findPlan 9 = some (0, planOf .armed .fire (some 0))
      ∧ (planned .armed .fire (some 0)).phase = .run
      ∧ (planOf .armed .fire (some 0)).timer.isSome
      ∧ (planned .loaded .fire none).findPlan 9 = some (0, planOf .loaded .fire none)
      ∧ (planned .applying .fire none).findPlan 9 = some (0, planOf .applying .fire none)
      ∧ (planned .done .fire none).findPlan 9 = some (0, planOf .done .fire none)
      ∧ (∀ e : Port, bench.guards[e].isSome = bench.egresses[e].entry.guard.isSome)
      ∧ (grouped (.member .lowWait) false none).group.membership = .member .lowWait
      ∧ (grouped (.member (.released none)) true none).group.membership = .member (.released none)
      ∧ (grouped (.member (.released (some 1))) true none).group.membership
          = .member (.released (some 1)) := by decide

/-- A RELEASED part on a line that reads HIGH pulls it down as its plan goes: LOW at once where the wiring is sound,
which is the free value of the draw in that state (R97; log entry 19). -/
theorem witness_CancelAndExpiryLetGoOfThePlan_high_line :
    let p := planOf .armed groupTrigger (some 0)
    let s := (grouped (.member (.released none)) true (some (groupRecord false .none))).setPlan 0 (some p)
    let t := s.letGo p false
    s.plans[(0 : SlotId)] = some p ∧ p.trigger.isGroup = true ∧ s.group.high = true
      ∧ s.group.membership = .member (.released none)
      ∧ t.group.membership = .member .lowIdle ∧ t.group.plan = none ∧ t.group.epoch = s.group.epoch
      ∧ t.group.high = !Config.grdySound s.draws ∧ t.draws = s.draws + 1 :=
  ⟨rfl, rfl, rfl, rfl, rfl, rfl, rfl, rfl, rfl⟩

theorem test_cancel_and_expiry :
    (afterCommand (.planCancel false)
      (ask ((planned .armed .fire none).setClaim 4 (some 9)) 0x33 [9])).claims[(4 : Port)] = none
    ∧ answer (.planCancel false) (ask (planned .applying .fire none) 0x33 [9]) = some [0x37]
    ∧ (afterCommand (.armExpiry 0) (planned .armed .fire (some 0))).plans[(0 : SlotId)].map
        (fun p => (p.state, p.reason)) = some (.expired, some .armTimeout)
    ∧ (afterCommand (.groupWaitExpiry 0 false)
        ((grouped (.member (.released (some 0))) true (some (groupRecord false .none))).setPlan 0
          (some (planOf .armed groupTrigger (some 0))))).group.membership = .member .lowIdle := by
  decide

def injectPlan : Plan :=
  { planOf .armed groupTrigger none with
    edits := [{ egress := 1, entry := { source := .inject, policy := .clean, guard := none }
                outcome := none }] }

theorem witness_CancelAndExpiryLetGoOfThePlan_resumes :
    (guarded (.suspended .primary .none) .dark .carry).guards[(1 : Port)]
        = some { ident := 0, state := .suspended .primary .none, last := none }
      ∧ (guarded (.suspended .primary .none) .dark .carry).primaryWell 1 fields = false
      ∧ (grouped (.member (.hold 7)) true none).group.membership = .member (.hold 7)
      ∧ injectPlan.trigger.isGroup = true
      ∧ (∃ d ∈ injectPlan.edits, d.entry.source = .inject ∧ bench.egresses[d.egress].onInject = false) := by
  decide

theorem test_stranded_frames_are_discarded :
    let s := ((mtxBusy bench).setPool (bench.pool.setView 1 { View.afterReset with
        queue := [{ id := 5, notify := true, bytes := [1] }] })).setGroup
      { bench.group with membership := .member (.hold 7), epoch := 3 }
    let t := s.letGo injectPlan true
    t.pool.views[(1 : Port)].queue = []
      ∧ t.notices.entries.map (fun n => n.body) = [.targetChanged 1 1 0]
      ∧ t.group.membership = .member (.hold 7) ∧ t.group.epoch = 3 := by decide

theorem test_suspended_guards_resume :
    let state (s : State) : Option GuardState := (s.guardResume 1).guards[(1 : Port)].map fun g => g.state
    state (guarded (.suspended .primary .none) .dark .carry) = some (.holdoff 5000000)
      ∧ state (guarded (.suspended .standby .none) .carry .carry) = some (.restoreWait 1000000000)
      ∧ state (guarded (.suspended .standby .forced) .carry .carry) = some .forced := by decide

/-- The third outcome of R106: the line qualifies first at the interface, the plan expires (section 11.4). -/
theorem test_expiry_meets_the_qualification :
    let t := afterCommand (.groupWaitExpiry 0 true)
      ((grouped (.member (.released (some 0))) true (some (groupRecord false .none))).setPlan 0
        (some (planOf .armed groupTrigger (some 0))))
    t.group.epoch = 1 ∧ t.group.membership = .member (.hold 2000) ∧ t.group.plan = none
      ∧ t.plans[(0 : SlotId)].map (fun p => (p.state, p.epochAtFire)) = some (.expired, none) := by
  decide

theorem witness_PlanReleaseFreesAndPlanReadReports :
    (req 0x35 [9]).payload = [9] ∧ bench.findPlan 9 = none
      ∧ (planned .armed .fire none).findPlan 9 = some (0, planOf .armed .fire none)
      ∧ (planned .done .fire none).findPlan 9 = some (0, planOf .done .fire none) := by decide

theorem test_plan_release_and_read :
    (afterCommand .planRelease (ask (planned .done .fire none) 0x35 [9])).plans[(0 : SlotId)] = none
      ∧ answer .planRelease (ask (planned .armed .fire none) 0x35 [9]) = some [0x36]
      ∧ (answer .planRead (ask (planned .armed .fire none) 0x34 [9])).map (fun a => a.take 6)
          = some [0, 0, 9, 2, 1, 0]
      ∧ (answer .planRead (ask (planned .armed .fire none) 0x34 [0])).map (fun a => a.take 5)
          = some [0, 2, 9, 1, 0] := by decide

def settledEgress : Egress :=
  { onSource (.ingress 8) .steady false none with
    entry := edit.entry
    planSettle := some { id := 9, outcome := .clean, sourceDown := true } }
def settling (st : PlanState) : State :=
  ((planned st .fire none).setEgress 4 settledEgress).setClaim 4 (some 9)

theorem witness_EditSettleReleasesAndCompletes :
    (settling .applying).phase = .run
      ∧ (settling .applying).egresses[(4 : Port)].planSettle
          = some { id := 9, outcome := .clean, sourceDown := true }
      ∧ (settling .applying).findPlan 9 = some (0, planOf .applying .fire none)
      ∧ (settling .done).findPlan 9 = some (0, planOf .done .fire none)
      ∧ (guarded .suspendedFired .carry .carry).guards[(1 : Port)].isSome
      ∧ (guarded .suspendedFired .carry .carry).primaryWell 1 fields = true
      ∧ (guarded .suspendedFired .dark .carry).primaryWell 1 fields = false ∧ fields.holdOff ≠ 0 := by
  decide

/-- A guard initialised with a hold-off of 0 over an unwell primary (R55). -/
theorem witness_EditSettleReleasesAndCompletes_hold_off :
    let s := (guarded .suspendedFired .dark .carry).setEgress 1
      { (guarded .suspendedFired .dark .carry).egresses[(1 : Port)] with
        entry := guardEntry { fields with holdOff := 0 } }
    s.primaryWell 1 { fields with holdOff := 0 } = false
      ∧ ((s.guardInit 1).holdOffIfZero 1).guards[(1 : Port)].map (fun r => r.state) = some .onStandby := by
  decide

theorem test_the_last_settle_completes_the_plan :
    let t := afterCommand (.editSettle 4) (settling .applying)
    t.claims[(4 : Port)] = none ∧ t.plans[(0 : SlotId)].map (fun p => p.state) = some .done
      ∧ t.link.mtx.map (fun m => m.message.payload.drop 6)
          = some [1, 9, 0, 1, 0xFF, 0, 0, 0, 0xFF, 1, 1, 0, 0, 1] := by decide

/-! ### The group interface -/

theorem witness_GroupConfigSetsMembership :
    (req 0x40 [2]).payload = [2] ∧ 3 ≤ (3 : Byte).toNat ∧ (2 : Byte).toNat < 3
      ∧ (0 : Byte) = bench.group.membership.code ∧ (2 : Byte) ≠ bench.group.membership.code
      ∧ ((grouped (.member .lowIdle) false none).setPlan 0
          (some (planOf .armed groupTrigger none))).groupBusy = true
      ∧ (grouped (.member .lowIdle) false none).group.membership.isMember = true
      ∧ bench.group.membership.isMember = false ∧ (req 0x41 []).payload = []
      ∧ (req 0x41 [0]).payload ≠ [] := by decide

theorem test_group_config :
    answer .groupConfig (ask bench 0x40 [1]) = some [0, 1, 0]
      ∧ (afterCommand .groupConfig (ask bench 0x40 [2])).group.driveLow = false
      ∧ (afterCommand .groupConfig (ask (grouped .nonMember true none) 0x40 [0])).group.membership = .unset
      ∧ answer .groupStatus (ask bench 0x41 []) = some [0, 0, 0xFF, 0, 0, 0, 0, 0, 0xFF, 0xFF, 0, 0] := by
  decide

theorem witness_GrdyLevelQualifiesOrFaults :
    bench.phase = .run ∧ bench.group.high = false ∧ bench.group.high ≠ true
      ∧ (grouped (.member (.released none)) false none).group.membership = .member (.released none)
      ∧ bench.group.driveLow = true ∧ bench.group.episode = false
      ∧ (∀ q, bench.group.membership ≠ .member (.released q))
      ∧ (afterCommand (.grdyLevelChange true) bench).group.faultTimer.isSome := by
  refine ⟨rfl, rfl, by decide, ?_, rfl, rfl, ?_, ?_⟩
  · decide
  · intro q h
    exact nomatch h
  · decide

/-- A drive that goes from RELEASED to LOW on a line that reads HIGH; soundness of the wiring is either. -/
theorem witness_GrdyLevelQualifiesOrFaults_moves :
    (grouped .nonMember true none).group.driveLow = false ∧ (grouped .nonMember true none).group.high = true
      ∧ Membership.unset.driveLow = true ∧ bench.group.driveLow = true
      ∧ (Config.grdySound 0 = true ∨ Config.grdySound 0 = false)
      ∧ (grouped .nonMember true none).group.pullsDown .unset = true
      ∧ bench.group.pullsDown .nonMember = false := by
  refine ⟨by decide, by decide, by decide, by decide, ?_, by decide, by decide⟩
  cases Config.grdySound 0 <;> simp

/-- A line that the part begins to pull down falls at once on sound wiring (R97); on unsound wiring the fault
timer starts (R108), unless an episode is in progress, which only a fall ends. -/
theorem test_pulling_down_a_high_line :
    let g : Group := { bench.group with membership := .nonMember, high := true }
    let h : Group := { g with episode := true }
    (g.moveTo .unset true).high = false ∧ (g.moveTo .unset true).faultTimer = none
      ∧ (g.moveTo .unset false).high = true ∧ (g.moveTo .unset false).faultTimer = some 200
      ∧ (h.moveTo .unset true).episode = false ∧ (h.moveTo .unset false).episode = true
      ∧ (h.moveTo .unset false).faultTimer = none ∧ (g.moveTo (.member .lowWait) true).high = false := by
  decide

/-- A line that goes HIGH under a drive that is RELEASED, or in an episode (R108). -/
theorem witness_GrdyLevelQualifiesOrFaults_no_timer :
    (grouped .nonMember false none).group.driveLow = false ∧ (grouped .nonMember false none).group.high ≠ true
      ∧ ({ bench.group with episode := true } : Group).episode = true
      ∧ (afterCommand (.grdyLevelChange true) (grouped .nonMember false none)).group.faultTimer = none := by
  decide

theorem test_grdy_levels :
    (afterCommand (.grdyLevelChange true)
      (grouped (.member (.released none)) false none)).group.membership
        = .member (.released (some 200))
    ∧ (afterCommand .faultTimerExpiry (afterCommand (.grdyLevelChange true) bench)).conds[grdyFault].count
        = 1 := by decide

theorem witness_GroupFireAdvancesTheEpochAndHolds :
    (grouped (.member (.released (some 0))) true none).phase = .run
      ∧ (grouped (.member (.released (some 0))) true none).group.qualifying = true
      ∧ ((grouped (.member (.released (some 0))) true none).setPlan 3
          (some (planOf .armed groupTrigger none))).armedGroupSlot = some 3
      ∧ bench.armedGroupSlot = none
      ∧ (grouped (.member (.hold 0)) true none).group.membership = .member (.hold 0)
      ∧ (grouped (.member (.hold 0)) true none).group.plan = none
      ∧ (groupRecord true .none).applying = true ∧ (groupRecord false .none).applying = false
      ∧ bench.groupReady (groupRecord false .none) = true
      ∧ bench.groupReady (groupRecord false .sourcesFit) = false := by decide

theorem test_group_fire_and_hold :
    let s := (grouped (.member (.released (some 0))) true (some (groupRecord false .none))).setPlan 0
      (some (planOf .armed groupTrigger (some 5)))
    (afterCommand .qualificationComplete s).group.epoch = 1
      ∧ (afterCommand .qualificationComplete s).plans[(0 : SlotId)].map (fun p => p.epochAtFire)
          = some (some 1)
      ∧ (afterCommand .holdExpiry (grouped (.member (.hold 0)) true none)).group.membership
          = .member .lowIdle := by decide

theorem test_line_events_of_the_group_sources :
    let s (m : MemberState) (l : LineState) : State :=
      (grouped (.member m) true (some (groupRecord false .sourcesFit))).setPort 8
        { carryPort with line := l }
    (s .lowWait .quiet).groupLineEvent.group.membership = .member (.released (some 200))
      ∧ (s (.released none) .noisy).groupLineEvent.group.membership = .member .lowWait
      ∧ (s (.released none) .noisy).groupLineEvent.draws = 1
      ∧ (s .lowWait .noisy).groupReady (groupRecord false .sourcesFit) = false
      ∧ (s .lowWait .carry).groupReady (groupRecord false .sourcesFit) = true
      ∧ (s (.hold 3) .quiet).groupLineEvent = s (.hold 3) .quiet := by decide +kernel

/-! ### PATTERN and INJECT -/

theorem witness_PatternConfigAndFrames :
    (req 0x50 [1, 0, 4, 16, 0]).payload = [1, 0, 4, 16, 0] ∧ (1 : Byte).toNat < 2
      ∧ 4 ≤ (readHalf 0 4).toNat ∧ (readHalf 4 0).toNat ≤ 1024 ∧ 8 ≤ (readHalf 0 8).toNat
      ∧ (readHalf 16 0).toNat ≤ 4096 ∧ 2 ≤ (2 : Byte).toNat ∧ (readHalf 0 3).toNat < 4
      ∧ 1024 < (readHalf 4 1).toNat ∧ (readHalf 0 7).toNat < 8 ∧ 4096 < (readHalf 16 1).toNat
      ∧ (bench.setPattern { bench.pattern with enable := true }).pattern.atFrameStart = true
      ∧ (bench.setPattern { bench.pattern with startDue := true }).pattern.atFrameStart = true
      ∧ bench.sourceOpen .pattern = true := by decide

theorem test_pattern_config_and_start :
    answer .patternConfig (ask bench 0x50 [1, 0, 4, 16, 0]) = some [0, 1, 0, 4, 16, 0, 0, 0, 0, 0, 0, 0]
      ∧ (afterCommand .patternFrameStart
          (bench.setPattern { bench.pattern with enable := true })).pattern.phase = .frame 0 64 16 0 := by
  decide

theorem witness_PatternConfigAndFrames_phases :
    bench.pattern.phase = .idle ∧ bench.pattern.enable = false
      ∧ ({ bench.pattern with phase := .frame 0 4 8 3 } : Pattern).newTime.2
          = some (.data (patternByte 0 3))
      ∧ ({ bench.pattern with phase := .frame 0 4 8 4 } : Pattern).newTime.2 = some .shut
      ∧ ({ bench.pattern with phase := .frame 0 4 8 5 } : Pattern).newTime.1.phase = .gap 0 4 8 1
      ∧ ({ bench.pattern with phase := .gap 0 4 8 7 } : Pattern).newTime.2 = some .fill
      ∧ ({ bench.pattern with phase := .gap 0 4 8 8 } : Pattern).newTime.1.startDue = true
      ∧ ({ bench.pattern with phase := .gap 0 4 8 8 } : Pattern).newTime.2 = none := by decide

/-- The frame of sequence number 0102H and eight bytes, from section 6.4 as R114 gives it. -/
theorem test_pattern_bytes :
    (List.range 8).map (patternByte 0x0102) = [1, 2, 0x10, 0x17, 0x1E, 0x25, 0x2C, 0x33] := by
  decide

def injecting (v : View) (c : Option Context) : State :=
  (bench.setEgress 1 (onSource .inject .steady false none)).setPool
    ((bench.pool.setView 1 v).setContext 0 c)
def openContext : Context :=
  { target := 1, id := 5, total := 300, notify := true, bytes := List.replicate 240 0, lastFragment := 0
    timer := 0 }
def smallFrame : Frame := { id := 5, notify := true, bytes := [1, 2] }

theorem witness_InjectStartReservesAndQueues :
    (req 0x60 [1, 0, 1, 0, 7]).payload = 1 :: 0 :: 1 :: 0 :: [7] ∧ [(7 : Byte)].length ≤ 240
      ∧ (List.replicate 240 (7 : Byte)).length ≤ 240 ∧ 240 < (List.replicate 241 (7 : Byte)).length
      ∧ 16 ≤ (16 : Byte).toNat ∧ (readHalf 0 0).toNat = 0 ∧ 1024 < (readHalf 4 1).toNat
      ∧ (readHalf 4 0).toNat ≤ 1024 ∧ (1 : Byte) = natByte (1 : Port).val ∧ (1 : Byte).toNat < 2
      ∧ bench.eligible 1 = false ∧ (injecting View.afterReset none).eligible 1 = true
      ∧ bench.pool.freeDescriptors ≠ 0 ∧ (1024 + 63) / 64 ≤ bench.pool.freeBlocks
      ∧ ¬ (1 + 63) / 64 ≤ ({ bench.pool with freeBlocks := 0 } : Pool).freeBlocks
      ∧ (injecting View.afterReset (some openContext)).pool.contexts[(0 : ContextId)].isSome
      ∧ bench.pool.contexts[(1 : ContextId)] = none ∧ bench.pool.liveIds.length ≤ 32 := by decide +kernel

/-- Ids that live frames and contexts hold are passed over, past the wrap too (R125). -/
theorem test_ids_advance_past_those_held :
    bench.pool.idAfter 0xFFFF = 0 ∧ (injecting View.afterReset none).pool.idAfter 4 = 5
      ∧ (injecting View.afterReset (some openContext)).pool.idAfter 4 = 6
      ∧ (injecting { View.afterReset with queue := [{ smallFrame with id := 6 }] }
          (some openContext)).pool.idAfter 4 = 7 := by decide

theorem test_inject_start :
    answer .injectStart (ask (injecting View.afterReset none) 0x60 [1, 0, 1, 0, 7])
        = some [0, 0, 0, 0xFF]
      ∧ answer .injectStart (ask (injecting View.afterReset none) 0x60 [1, 0, 2, 0, 7])
        = some [0, 0, 0, 0]
      ∧ answer .injectStart (ask bench 0x60 [1, 0, 1, 0, 7]) = some [0x41]
      ∧ (afterCommand .injectStart
          (ask (injecting View.afterReset none) 0x60 [1, 1, 44, 0, 7])).pool.freeBlocks = 123 := by
  decide

theorem witness_InjectContStoresAndAssembliesEnd :
    (req 0x61 [0, 0, 240, 7]).payload = 0 :: 0 :: 240 :: [7] ∧ 1 ≤ [(7 : Byte)].length
      ∧ 2 ≤ (2 : Byte).toNat ∧ (0 : Byte) = natByte (0 : ContextId).val
      ∧ bench.pool.contexts[(0 : ContextId)] = none
      ∧ (injecting View.afterReset (some openContext)).pool.contexts[(0 : ContextId)] = some openContext
      ∧ (readHalf 0 240).toNat = openContext.bytes.length
      ∧ (readHalf 0 241).toNat ≠ openContext.bytes.length
      ∧ openContext.bytes.length + 59 < openContext.total
      ∧ openContext.bytes.length + 60 = openContext.total
      ∧ openContext.total < openContext.bytes.length + 61
      ∧ (req 0x62 [0]).payload = [0] ∧ (req 0x63 []).payload = [] ∧ (req 0x63 [0]).payload ≠ [] := by
  decide +kernel

/-- The frame of 300 bytes of section 11.5. -/
theorem test_inject_cont_and_ends :
    let s := injecting View.afterReset (some openContext)
    answer .injectCont (ask s 0x61 ([0, 0, 240] ++ List.replicate 60 7)) = some [0, 0, 5, 1, 44, 1]
      ∧ answer .injectCont (ask s 0x61 [0, 0, 241, 7]) = some [0x43, 0, 240]
      ∧ answer .injectAbort (ask s 0x62 [0]) = some [0, 0, 5, 0, 240]
      ∧ (afterCommand (.assemblyTimeout 0) s).link.mtx.map (fun m => m.message.payload.drop 6)
          = some [0, 1, 1, 0, 5, 0, 0, 0, 240, 0] := by decide +kernel

theorem test_pool_status :
    (answer .poolStatus (ask (injecting View.afterReset none) 0x63 [])).map (fun a => a.take 11)
      = some [0, 128, 32, 0, 0, 0, 0, 0, 0, 0, 1] := by decide

theorem test_pool_status_of_an_open_context :
    (({ injecting View.afterReset (some openContext) with timeBase := 499999 } : State).poolStatusResult.drop
        84).take 11 = [1, 1, 0, 5, 1, 44, 0, 240, 5, 1, 0xF3] := by decide +kernel

def sendingView : View :=
  { queue := [], sending := some { frame := smallFrame, sent := 2, shutDue := true }, gap := 0
    startDue := false }

theorem witness_InjectedFramesStartEndAndAreDiscarded :
    let s := injecting { View.afterReset with queue := [smallFrame], gap := 8 } none
    let t := injecting sendingView none
    s.phase = .run ∧ s.egresses[(1 : Port)].state = .steady ∧ s.egresses[(1 : Port)].current = .inject
      ∧ s.pool.views[(1 : Port)].sending = none ∧ s.pool.views[(1 : Port)].gap = 8
      ∧ s.pool.views[(1 : Port)].queue = smallFrame :: []
      ∧ t.pool.views[(1 : Port)].sending = some { frame := smallFrame, sent := 2, shutDue := true }
      ∧ t.egresses[(1 : Port)].change = none
      ∧ (t.setEgress 1 (draining .inject (some .shut) none)).egresses[(1 : Port)].state = .draining
      ∧ (t.setEgress 1 (draining .inject (some .shut) none)).egresses[(1 : Port)].change
          = some (toSource .fill .clean) := by decide

theorem test_injected_frame :
    let s := injecting { View.afterReset with queue := [smallFrame], gap := 8 } none
    let t := injecting sendingView none
    (afterCommand (.injectFrameStart 1) s).egresses[(1 : Port)].line = some .opn
      ∧ (afterCommand (.injectFrameSent 1) t).pool.freeDescriptors = 33
      ∧ (afterCommand (.injectFrameSent 1) t).link.mtx.map (fun m => m.message.payload.drop 6)
          = some [1, 0, 5, 0, 2]
      ∧ ((mtxBusy t).injectCut 1).notices.entries.map (fun n => n.body) = [.frameCut 1 5 2 2]
      ∧ ((mtxBusy s).injectDiscard 1).notices.entries.map (fun n => n.body) = [.targetChanged 1 1 0] := by
  decide

def viewOf (sent : Nat) : View :=
  { queue := [], sending := some { frame := smallFrame, sent := sent, shutDue := false }, gap := 0
    startDue := false }

theorem witness_InjectedFramesStartEndAndAreDiscarded_view :
    let s := injecting { View.afterReset with queue := [smallFrame], gap := 8 } none
    s.frameMayStart 1 = true ∧ (injecting View.afterReset none).frameMayStart 1 = false
      ∧ smallFrame.bytes[1]? = some 2 ∧ smallFrame.bytes.length ≤ 2
      ∧ ((injecting (viewOf 1) none).egresses[(1 : Port)].receive .inject (.data 2)).held = none
      ∧ ((draining .inject none (some 0)).receive .inject (.data 2)).held ≠ none := by decide

theorem test_a_view_offers_its_frame :
    ((injecting (viewOf 1) none).viewNewTime 1).egresses[(1 : Port)].line = some (.data 2)
      ∧ ((injecting (viewOf 1) none).viewNewTime 1).pool.views[(1 : Port)] = viewOf 2
      ∧ ((injecting (viewOf 2) none).viewNewTime 1).pool.views[(1 : Port)].sending.map
          (fun f => f.shutDue) = some true
      ∧ ((injecting View.afterReset none).viewNewTime 1).pool.views[(1 : Port)].gap = 1 := by decide

/-- A drain of an injected frame meets its deadline, and a new change is taken first (R40, R134): the DATA it
held back is sent, and the view goes on with the next one. -/
theorem test_held_data_is_sent_once :
    let s := (injecting (viewOf 1) none).setEgress 1 (draining .inject (some (.data 2)) (some 0))
    let t := s.takeChange 1 (toSource (.ingress 5) .clean)
    t.egresses[(1 : Port)].line = some (.data 2) ∧ t.egresses[(1 : Port)].held = none
      ∧ t.pool.views[(1 : Port)] = viewOf 2 := by decide

/-- A change away from INJECT that cuts a frame: TARGET_CHANGED precedes CUT (R137, R153), where the selector
itself raises no notice. -/
theorem test_away_from_inject :
    let s := (injecting { viewOf 1 with queue := [smallFrame] } none).setEgress 1
      (onSource .inject .steady true none)
    let ch : Change := { toSource .fill .force with requester := .connect 7 false }
    let t := (mtxBusy s).takeChange 1 ch
    t.notices.entries.map (fun n => n.body) = [.targetChanged 1 1 0, .frameCut 1 5 2 1]
      ∧ t.egresses[(1 : Port)].line = some .abort ∧ t.egresses[(1 : Port)].current = .fill
      ∧ t.pool.views[(1 : Port)].sending = none ∧ s.egresses[(1 : Port)].cutBy ch = true := by decide

/-! ### Conditions, sense inputs and notices -/

theorem witness_OccurrenceLatchesCountsAndNotifies :
    (0 : Byte).toNat < 255 ∧ (254 : Byte).toNat < 255 ∧ (255 : Byte).toNat = 255
      ∧ (bench.setCond 4 { Condition.afterReset with subscribed := true }).conds[(4 : CondId)]
          = { latch := false, count := 0, subscribed := true, pending := false }
      ∧ bench.conds[(4 : CondId)].subscribed = false ∧ (5 : CondId) ≠ 4
      ∧ bench.phase = .run ∧ bench.link.mtx = none ∧ (mtxBusy bench).link.mtx.isSome
      ∧ (bench.link.refusals = [] ∧ bench.link.executed = [] ∧ bench.notices.entries = []) := by decide

theorem test_occurrence_of_a_subscribed_condition :
    let s := bench.setCond 4 { Condition.afterReset with subscribed := true, count := 255 }
    let t := (mtxBusy s).occur 4
    t.conds[(4 : CondId)] = { latch := true, count := 255, subscribed := true, pending := true }
      ∧ t.notices.entries.map (fun n => n.body) = [.condition 4]
      ∧ (s.occur 4).conds[(4 : CondId)].pending = false ∧ (s.occur 4).notices.entries = []
      ∧ (s.occur 4).link.mtx.map (fun m => m.message.payload.drop 6) = some [4, 1, 255] := by decide

theorem witness_ConditionsAreReadClearedAndSubscribed :
    (req 0x70 []).payload = [] ∧ (req 0x70 [0]).payload ≠ []
      ∧ (req 0x71 [1, 1, 39]).payload = 1 :: 1 :: [39] ∧ [(39 : Byte)].length = (1 : Byte).toNat
      ∧ (40 : Byte).toNat ≤ 40 ∧ ([] : List Byte).length = (0 : Byte).toNat
      ∧ (∀ i ∈ [(39 : Byte)], i.toNat < 40) ∧ (∃ i ∈ [(40 : Byte)], 40 ≤ i.toNat)
      ∧ [(39 : Byte)] ≠ [] ∧ 2 ≤ (2 : Byte).toNat ∧ (req 0x72 [1, 39]).payload = 1 :: [39] := by
  decide

theorem test_conditions :
    answer .conditionsClear (ask (bench.occur 39) 0x71 [1, 1, 39]) = some [0, 1, 39, 1, 1]
      ∧ (afterCommand .conditionsClear (ask (bench.occur 39) 0x71 [0, 0])).conds[(39 : CondId)].latch
          = false
      ∧ answer .subscribe (ask bench 0x72 [2, 39, 4]) = some [0, 2, 4, 39]
      ∧ answer .subscribe (ask bench 0x72 [1, 40]) = some [0x22] := by decide

theorem test_conditions_read :
    (answer .conditionsRead (ask (bench.occur 0) 0x70 [])).map (fun a => (a.take 5, a.length))
      = some ([0, 1, 1, 0, 0], 169) := by decide +kernel

def qualifying : State := bench.setSense 3 { level := true, qualifier := .qualifying 0 }

theorem witness_SenseInputsQualifyAndFire :
    bench.phase = .run ∧ bench.senses[(3 : SenseId)].qualifier = .low
      ∧ qualifying.senses[(3 : SenseId)].qualifier ≠ .low
      ∧ qualifying.senses[(3 : SenseId)].qualifier = .qualifying 0
      ∧ (3 : CondId).val = (3 : SenseId).val ∧ qualifying.conds[(3 : CondId)].latch = false
      ∧ (qualifying.occur 3).conds[(3 : CondId)].latch = true
      ∧ (((qualifying.setPlan 0 (some (planOf .armed (.sense 3) none))).setSense 3
          { level := true, qualifier := .high }).occur 3).waitingOn (.sense 3) = [0] := by decide

theorem test_sense_inputs :
    (afterCommand (.senseRise 3) bench).senses[(3 : SenseId)].qualifier = .qualifying 20
      ∧ (afterCommand (.senseFall 3) qualifying).senses[(3 : SenseId)].qualifier = .low
      ∧ (afterCommand (.senseQualified 3)
          (qualifying.setPlan 0 (some (planOf .armed (.sense 3) none)))).plans[(0 : SlotId)].map
          (fun p => p.state) = some .applying := by decide

def fullQueue (n : Nat) (loss : Option Word32) : NoticeQueue :=
  { entries := List.replicate n { number := 0, time := 0, body := .condition 4 }, next := 3, lost := 254
    firstLoss := loss }

theorem witness_NoticesAreNumberedLostAndReported :
    (fullQueue 31 none).entries.length < 32 ∧ 32 ≤ (fullQueue 32 none).entries.length
      ∧ (fullQueue 32 none).firstLoss = none ∧ (fullQueue 16 (some 7)).firstLoss = some 7
      ∧ (fullQueue 16 (some 7)).entries.length = 16 ∧ (fullQueue 17 (some 7)).entries.length ≠ 16
      ∧ bench.phase = .run ∧ bench.link.mtx = none ∧ bench.link.refusals = [] ∧ bench.link.executed = []
      ∧ bench.notices.entries = [] ∧ bench.notices.firstLoss = none ∧ (mtxBusy bench).link.mtx.isSome := by
  decide

/-- 33 notices of one event, MTX idle: the first starts at once and the rest find room (R148, R166). -/
theorem test_an_event_with_33_notices_loses_none :
    let t := (List.range 33).foldl (fun u _ => u.notify (.condition 4)) bench
    t.notices.entries.length = 32 ∧ t.notices.firstLoss = none ∧ t.link.mtx.isSome := by decide +kernel

theorem test_overflow_notice :
    ((fullQueue 16 (some 7)).afterDeparture 9).entries.getLast?
        = some { number := 3, time := 9, body := .overflow 254 7 }
      ∧ ((fullQueue 32 none).offer 9 (.condition 5)).firstLoss = some 9 := by decide

/-! ### What every step keeps: states that have the properties, and a step from them -/

/-- A state with every kept property, not a reset state: a claimed egress, a plan that has fired, and a
request that waits. -/
def busy : State := ask (afterCommand .planFire (ask (afterCommand .planArm
  (ask (planned .loaded .fire none) 0x31 [9])) 0x32 [9])) 0x21 []

theorem witness_kept_properties_have_a_next_step :
    (∀ c : CondId, busy.conds[c].latch = true ↔ busy.conds[c].count ≠ 0)
      ∧ busy.notices.entries.length ≤ 32 ∧ busy.link.intake.length ≤ 4 ∧ busy.link.replies ≤ 6
      ∧ (∀ c : CondId, busy.notices.countFor c = if busy.conds[c].pending then 1 else 0)
      ∧ busy.pool.freeBlocks + busy.pool.heldBlocks = 128
      ∧ busy.pool.freeDescriptors + busy.pool.heldDescriptors = 32
      ∧ (∀ e : Port, busy.guards[e].isSome = busy.egresses[e].entry.guard.isSome)
      ∧ (∀ e : Port, busy.egresses[e].entry.valid = true)
      ∧ busy.claims[(4 : Port)] = some 9
      ∧ busy.plans[(0 : SlotId)].map (fun p => p.state) = some .applying := by decide

/-- A MARK event waits, and ingress 3 has its read still to make. -/
theorem witness_EveryStepKeepsStreamsWellFormed_marks :
    let s := (withPort { carryPort with markDue := true }).setPort 3 { carryPort with readDue := true }
    (∀ p : Port, s.ports[p].markDue = true → ∃ q : Port, s.ports[q].readDue = true)
      ∧ s.ports[(2 : Port)].markDue = true := by decide

theorem witness_a_step_answers_next : ∃ t : State, step { busy with pending := [.mapRead] } = .next t :=
  ⟨_, rfl⟩

def claimed : State := (planned .armed .fire none).setClaim 4 (some 9)

theorem witness_EveryStepKeepsClaimsWithTheirPlans : claimed.ClaimsHeld := by
  have hp : ∀ k : SlotId, claimed.plans[k] = if k = 0 then some (planOf .armed .fire none) else none := by
    decide
  have hc : ∀ e : Port, claimed.claims[e] = if e = 4 then some 9 else none := by decide
  have one : ∀ (k : SlotId) (p : Plan), claimed.plans[k] = some p →
      k = 0 ∧ p = planOf .armed .fire none := by
    intro k p h
    rw [hp k] at h
    split at h
    · rename_i hk
      exact ⟨hk, by simpa using h.symm⟩
    · simp at h
  refine ⟨?_, ?_, ?_⟩
  · intro j k p q hj hk _
    rw [(one j p hj).1, (one k q hk).1]
  · intro k p h
    rw [(one k p h).2]
    unfold Plan.Wf
    decide
  · intro e id h
    rw [hc e] at h
    split at h
    · rename_i he
      refine ⟨0, planOf .armed .fire none, hp 0, ?_, Or.inl rfl, edit, by decide, he.symm, rfl⟩
      simpa [planOf] using h
    · simp at h

theorem witness_EveryStepKeepsStreamsWellFormed : bench.StreamsWf := by
  have he : ∀ e : Port, bench.egresses[e] = Egress.afterReset := by decide
  have hi : ∀ p : Port, bench.ports[p] = Ingress.afterReset false := by decide
  refine ⟨?_, ?_, ?_, ?_⟩
  · intro e
    rw [he e]
    exact ⟨rfl, rfl, rfl, rfl⟩
  · intro p
    rw [hi p]
    unfold Ingress.Wf
    decide
  · intro h
    exact absurd h (by decide)
  · intro e
    unfold State.InStep Egress.LineAgrees
    rw [he e]
    exact ⟨trivial, rfl⟩

theorem witness_EveryStepKeepsGuardsAndEntries : busy.EntriesValid := by
  have hp : ∀ k : SlotId, (busy.plans[k].map fun p => p.edits).getD [] = if k = 0 then [edit] else [] := by
    decide
  refine ⟨by decide, ?_⟩
  intro k p h d hd
  have hk := hp k
  rw [h] at hk
  split at hk
  · simp only [Option.map_some, Option.getD_some] at hk
    rw [hk] at hd
    simp only [List.mem_singleton] at hd
    rw [hd]
    decide
  · simp only [Option.map_some, Option.getD_some] at hk
    rw [hk] at hd
    simp at hd

end Sys2Proof.Tests
end

section
/-! One egress and the streams of its sources (R29, R30). -/

namespace Sys2Proof.Machine

/-- `g` is in step with its source, `between` telling which sources are between frames (R29, R30). -/
def Egress.InStep (g : Egress) (between : Source → Bool) : Prop :=
  match g.state with
  | .off => True
  | .joining => True
  | .steady => g.inside = !between g.current
  | .draining =>
    match g.held with
    | none => between g.current = false
    | some c => between g.current = (decide (g.current ≠ .inject) && isTerminator c)

theorem State.inStep_iff (s : State) (e : Port) :
    s.InStep e ↔ s.egresses[e].InStep (s.betweenFrames e) := Iff.rfl

/-- `g` waits for an event of its own before `src` offers its next character (R37, R38, R39). -/
def Egress.Closes (g : Egress) (between : Source → Bool) (src : Source) : Prop :=
  (g.current = src ∧ g.held.isSome = true)
    ∨ (g.state = .joining ∧ between src = true ∧ ∃ ch, g.change = some ch ∧ ch.target = src)

theorem State.closes_iff (s : State) (e : Port) (src : Source) :
    s.closes e src = true ↔ s.egresses[e].Closes (s.betweenFrames e) src := by
  unfold State.closes State.joinReady Egress.Closes
  cases s.egresses[e].change with
  | none => simp
  | some ch =>
    simp only [Option.any_some, Bool.or_eq_true, Bool.and_eq_true, decide_eq_true_eq, Option.some.injEq,
      exists_eq_left']
    constructor
    · rintro (h | ⟨⟨hs, hb⟩, ht⟩)
      · exact .inl h
      · exact .inr ⟨hs, ht ▸ hb, ht⟩
    · rintro (h | ⟨hs, hb, ht⟩)
      · exact .inl h
      · exact .inr ⟨⟨hs, ht ▸ hb⟩, ht⟩

theorem State.sourceOpen_iff (s : State) (src : Source) :
    s.sourceOpen src = true ↔ ∀ e : Port, ¬ s.egresses[e].Closes (s.betweenFrames e) src := by
  unfold State.sourceOpen
  simp only [List.all_eq_true, Bool.not_eq_true', allPorts, List.mem_finRange, forall_const]
  exact forall_congr' fun e => by rw [← s.closes_iff, Bool.not_eq_true]

/-- One egress of a well-formed map (R30): its selector, its place in its source's frames and the character it has
sent agree, and it closes none of the sources in `opened`. -/
structure Egress.Ok (g : Egress) (between : Source → Bool) (opened : Source → Prop) : Prop where
  wf : g.Wf
  inStep : g.InStep between
  line : g.LineAgrees
  opened : ∀ src, opened src → ¬ g.Closes between src

section
variable {g : Egress} {b : Source → Bool} {opened : Source → Prop}

theorem Egress.ok_off (h : g.state = .off) :
    g.Ok b opened ↔ g.inside = false ∧ g.change = none ∧ g.current = .hold ∧ g.held = none ∧ g.LineAgrees := by
  constructor
  · rintro ⟨wf, -, hl, -⟩
    simp only [Egress.Wf, h] at wf
    obtain ⟨h1, h2, h3, h4⟩ := wf
    exact ⟨h1, h2, h3, h4, hl⟩
  · rintro ⟨h1, h2, h3, h4, hl⟩
    exact ⟨by simp [Egress.Wf, *], by simp [Egress.InStep, h], hl, by simp [Egress.Closes, *]⟩

theorem Egress.ok_steady (h : g.state = .steady) :
    g.Ok b opened ↔ g.change = none ∧ g.current ≠ .hold ∧ g.held = none ∧ g.inside = !b g.current
      ∧ g.LineAgrees := by
  constructor
  · rintro ⟨wf, hi, hl, -⟩
    simp only [Egress.Wf, h] at wf
    simp only [Egress.InStep, h] at hi
    obtain ⟨h1, h2, h3⟩ := wf
    exact ⟨h1, h2, h3, hi, hl⟩
  · rintro ⟨h1, h2, h3, hi, hl⟩
    exact ⟨by simp [Egress.Wf, *], by simp [Egress.InStep, h, hi], hl, by simp [Egress.Closes, *]⟩

theorem Egress.ok_joining (h : g.state = .joining) :
    g.Ok b opened ↔ g.inside = false ∧ g.held = none
      ∧ (∃ ch, g.change = some ch ∧ (opened ch.target → b ch.target = false)) ∧ g.LineAgrees := by
  constructor
  · rintro ⟨wf, -, hl, ho⟩
    simp only [Egress.Wf, h] at wf
    obtain ⟨h1, h2, h3⟩ := wf
    obtain ⟨ch, hc⟩ := Option.isSome_iff_exists.mp h2
    refine ⟨h1, h3, ⟨ch, hc, fun hs => ?_⟩, hl⟩
    have := ho _ hs
    simpa [Egress.Closes, h, hc, h3] using this
  · rintro ⟨h1, h3, ⟨ch, hc, hb⟩, hl⟩
    refine ⟨by simp [Egress.Wf, *], by simp [Egress.InStep, h], hl, fun src hs hcl => ?_⟩
    simp only [Egress.Closes, h, h3, hc, Option.isSome_none, Bool.false_eq_true, and_false, true_and,
      Option.some.injEq, exists_eq_left', false_or] at hcl
    obtain ⟨hb', rfl⟩ := hcl
    rw [hb hs] at hb'
    cases hb'

theorem Egress.ok_draining (h : g.state = .draining) :
    g.Ok b opened ↔ g.inside = true ∧ g.change.isSome ∧ g.current ≠ .hold ∧ g.HeldOk ∧ g.InStep b
      ∧ g.LineAgrees ∧ (opened g.current → g.held = none) := by
  constructor
  · rintro ⟨wf, hi, hl, ho⟩
    simp only [Egress.Wf, h] at wf
    obtain ⟨h1, h2, h3, h4⟩ := wf
    refine ⟨h1, h2, h3, h4, hi, hl, fun hs => ?_⟩
    have := ho _ hs
    simpa [Egress.Closes, h] using this
  · rintro ⟨h1, h2, h3, h4, hi, hl, ho⟩
    refine ⟨by simp [Egress.Wf, *], hi, hl, fun src hs hcl => ?_⟩
    simp only [Egress.Closes, h, reduceCtorEq, false_and, or_false] at hcl
    obtain ⟨rfl, hh⟩ := hcl
    simp [ho hs] at hh

/-- An egress depends on its own source and on the target it joins. -/
theorem Egress.Ok.congr {b' : Source → Bool} (h : g.Ok b opened) (hb : ∀ src, b' src = b src) : g.Ok b' opened := by
  rwa [show b' = b from funext hb]

end

/-! ### The line and the frame position (R30) -/

theorem Egress.LineAgrees.congr {g g' : Egress} (h : g.LineAgrees) (hl : g'.line = g.line)
    (hi : g'.inside = g.inside) : g'.LineAgrees := by
  unfold Egress.LineAgrees at h ⊢
  rw [hl, hi]
  exact h

theorem isTerminator_iff (c : Character) : isTerminator c = true ↔ c = .shut ∨ c = .abort := by
  cases c <;> simp [isTerminator]

end Sys2Proof.Machine
end

section
/-! What a selector does with one character (R31, R37, R39, R41). -/

namespace Sys2Proof.Machine

/-- No source need be open. -/
def noSource (_ : Source) : Prop := False

section
variable {g : Egress} {b b' : Source → Bool} {opened : Source → Prop}

/-- An egress is in step with its current source alone. -/
theorem Egress.InStep.of_current (h : g.InStep b) (hb : b' g.current = b g.current) : g.InStep b' := by
  unfold Egress.InStep at h ⊢
  rw [hb]
  exact h

theorem Egress.Ok.of_current (h : g.Ok b opened) (hb : b' g.current = b g.current) : g.Ok b' noSource :=
  ⟨h.wf, h.inStep.of_current hb, h.line, fun _ hs => hs.elim⟩

/-- The source `src`, which of the sources are between frames being `b` before and `b'` after, goes on with `c`: OPEN,
FILL or MARK between frames, and else DATA or a terminator (R14, R29). -/
structure Offers (src : Source) (c : Character) (b b' : Source → Bool) : Prop where
  outside : b src = true → c = .opn ∨ c = .fill ∨ c = .mark
  inside : b src = false → (∃ v, c = .data v) ∨ c = .shut ∨ c = .abort
  after : b' src = !positionAfter c (!b src)
  others : ∀ x, x ≠ src → b' x = b x

/-- Such a character goes with the frame position it leaves. -/
theorem Egress.lineAgrees_of_offers {src : Source} {c : Character} (ho : Offers src c b b')
    (hl : g.line = some c) (hi : g.inside = positionAfter c (!b src)) : g.LineAgrees := by
  unfold Egress.LineAgrees
  cases hb : b src with
  | true => rcases ho.outside hb with rfl | rfl | rfl <;> simp [hl, hi, positionAfter, hb]
  | false => rcases ho.inside hb with ⟨v, rfl⟩ | rfl | rfl <;> simp [hl, hi, positionAfter, hb]

/-- A draining egress that holds nothing back takes a character of its frame: it holds back the terminator, or any
character once the deadline has run out, and sends each other one (R37, R39). -/
theorem Egress.drainCharacter_ok {c : Character} {ch : Change} (hs : g.state = .draining) (hi : g.inside = true)
    (hch : g.change = some ch) (hcur : g.current ≠ .hold) (hl : g.LineAgrees) (hh : g.held = none)
    (hc : (∃ v, c = .data v) ∨ c = .shut ∨ c = .abort) (ho : ¬ opened g.current)
    (hb : b g.current = (decide (g.current ≠ .inject) && isTerminator c)) : (g.drainCharacter c).Ok b opened := by
  unfold Egress.drainCharacter
  simp only [hch, hh, Option.isSome_none, Bool.false_eq_true, if_false]
  split
  · rename_i hk
    refine (Egress.ok_draining (by exact hs)).mpr ⟨hi, by simp, hcur, ?_,
      by simpa [Egress.InStep, hs] using hb, hl, fun hop => absurd hop ho⟩
    rintro d hd
    cases hd
    refine ⟨?_, fun _ => by simpa [hch] using hk⟩
    rcases hc with ⟨v, rfl⟩ | rfl | rfl <;> simp [isTerminator]
  · rename_i hk
    simp only [Bool.or_eq_true, not_or, Bool.not_eq_true] at hk
    obtain ⟨v, rfl⟩ : ∃ v, c = .data v := by
      rcases hc with h | rfl | rfl
      · exact h
      · simp [isTerminator] at hk
      · simp [isTerminator] at hk
    refine (Egress.ok_draining (by exact hs)).mpr ⟨hi, rfl, hcur, ?_, ?_, hi, fun hop => absurd hop ho⟩
    · rintro d hd
      cases hd
    · simpa [Egress.InStep, hs, hh, isTerminator] using hb

/-- A source with a stream of its own goes on with a character, and an egress that does not close it takes it. -/
theorem Egress.receive_ok {src : Source} {c : Character} (h : g.Ok b opened) (ho : Offers src c b b')
    (hj : src ≠ .inject) (hcl : ¬ g.Closes b src) : (g.receive src c).Ok b' noSource := by
  unfold Egress.receive
  by_cases hc : g.current = src
  · rw [if_pos hc]
    subst hc
    split
    case h_1 hs =>
      obtain ⟨h1, h2, h3, h4, -⟩ := (Egress.ok_steady hs).mp h
      refine (Egress.ok_steady (by exact hs)).mpr ⟨h1, h2, h3, ?_,
        Egress.lineAgrees_of_offers (g := { g with line := some c, inside := positionAfter c g.inside }) ho rfl
          (by rw [h4])⟩
      simp [h4, ho.after]
    case h_2 hs =>
      have hh : g.held = none := by simpa [Egress.Closes, hs] using hcl
      obtain ⟨hi, hch, hcur, -, hb, hl, -⟩ := (Egress.ok_draining hs).mp h
      obtain ⟨ch, hch⟩ := Option.isSome_iff_exists.mp hch
      simp only [Egress.InStep, hs, hh] at hb
      have hc := ho.inside hb
      refine Egress.drainCharacter_ok hs hi hch hcur hl hh hc id ?_
      rw [ho.after, hb]
      rcases hc with ⟨v, rfl⟩ | rfl | rfl <;> simp [positionAfter, isTerminator, hj]
    case h_3 hs =>
      obtain ⟨h1, h2, h3, h4, h5⟩ := (Egress.ok_off hs).mp h
      exact (Egress.ok_off hs).mpr ⟨h1, h2, h3, h4, h5⟩
    case h_4 hs =>
      obtain ⟨h1, h2, ⟨ch, h3, -⟩, h4⟩ := (Egress.ok_joining hs).mp h
      exact (Egress.ok_joining hs).mpr ⟨h1, h2, ⟨ch, h3, False.elim⟩, h4⟩
  · rw [if_neg hc]
    exact h.of_current (ho.others _ hc)

/-- A withdrawn drain sends what the egress holds back, but for the SHUT of an injected frame (R41, R135). -/
theorem Egress.resume_keeps (h : ∀ c, g.held = some c → g.holdsInjectShut c = true) :
    g.resume = { g with held := none } := by
  unfold Egress.resume
  split
  · rename_i hh
    rw [← hh]
  · rename_i c hh
    exact if_pos (h c hh)

theorem Egress.resume_sends {c : Character} (hh : g.held = some c) (h : g.holdsInjectShut c = false) :
    g.resume = { g with held := none, line := some c, inside := positionAfter c g.inside } := by
  unfold Egress.resume
  split
  · rename_i hn
    rw [hh] at hn
    cases hn
  · rename_i d hd
    obtain rfl : c = d := Option.some.inj (hh.symm.trans hd)
    exact if_neg (by simp [h])

theorem Egress.holdsInjectShut_iff (c : Character) :
    g.holdsInjectShut c = true ↔ g.current = .inject ∧ isTerminator c = true := by
  simp [Egress.holdsInjectShut]

/-- A withdrawn drain leaves the egress STEADY where it stood (R41). -/
theorem Egress.resume_ok (hs : g.state = .draining) (h : g.Ok b opened) :
    ({ g.resume with state := .steady, change := none } : Egress).Ok b opened := by
  obtain ⟨hi, -, hcur, hk, hb, hl, -⟩ := (Egress.ok_draining hs).mp h
  refine (Egress.ok_steady rfl).mpr ?_
  by_cases hj : ∀ c, g.held = some c → g.holdsInjectShut c = true
  · have hb0 : b g.current = false := by
      simp only [Egress.InStep, hs] at hb
      split at hb
      · exact hb
      · rename_i c hh
        rw [hb, ((Egress.holdsInjectShut_iff c).mp (hj c hh)).1]
        rfl
    rw [Egress.resume_keeps hj]
    exact ⟨rfl, hcur, rfl, by simp [hi, hb0], hl⟩
  · obtain ⟨c, hh, hj⟩ : ∃ c, g.held = some c ∧ g.holdsInjectShut c = false := by simpa using hj
    have hbt : b g.current = isTerminator c := by
      simp only [Egress.InStep, hs, hh] at hb
      rw [hb]
      by_cases hcj : g.current = .inject
      · have ht : isTerminator c = false := by simpa [Egress.holdsInjectShut, hcj] using hj
        simp [ht]
      · simp [hcj]
    rw [Egress.resume_sends hh hj]
    refine ⟨rfl, hcur, rfl, ?_, ?_⟩
    all_goals
      rcases (hk c hh).1 with ht | ⟨v, rfl⟩
      · rcases (isTerminator_iff c).mp ht with rfl | rfl <;>
          simp [positionAfter, hbt, isTerminator, Egress.LineAgrees]
      · simp [positionAfter, hbt, isTerminator, Egress.LineAgrees, hi]

/-- A new change under CLEAN leaves what the egress holds back, unless that waited for the old deadline (R40). -/
theorem Egress.drainAfresh_keeps (ch : Change) (h : ∀ c, g.held = some c → g.holdsInjectShut c = true) :
    g.drainAfresh ch = { g with change := some ch } := by
  unfold Egress.drainAfresh
  split
  · rfl
  · rename_i c hh
    simp [h c hh]

theorem Egress.drainAfresh_sends (ch : Change) {c : Character} (hh : g.held = some c)
    (h : g.holdsInjectShut c = false) :
    g.drainAfresh ch = ({ g with change := some ch, held := none } : Egress).drainCharacter c := by
  unfold Egress.drainAfresh
  split
  · rename_i hn
    rw [hh] at hn
    cases hn
  · rename_i d hd
    obtain rfl : c = d := Option.some.inj (hh.symm.trans hd)
    exact if_neg (by simp [h])

/-- A draining egress whose change is replaced under CLEAN drains on (R40). -/
theorem Egress.drainAfresh_ok (ch : Change) (hs : g.state = .draining) (h : g.Ok b opened) :
    (g.drainAfresh ch).Ok b opened := by
  obtain ⟨hi, -, hcur, hk, hb, hl, ho⟩ := (Egress.ok_draining hs).mp h
  by_cases hj : ∀ c, g.held = some c → g.holdsInjectShut c = true
  · rw [Egress.drainAfresh_keeps ch hj]
    refine (Egress.ok_draining (by exact hs)).mpr ⟨hi, rfl, hcur, fun c hc => ⟨(hk c hc).1, fun hx => ?_⟩, hb, hl, ho⟩
    exact absurd ((Egress.holdsInjectShut_iff c).mp (hj c hc)).1 hx
  · obtain ⟨c, hh, hj⟩ : ∃ c, g.held = some c ∧ g.holdsInjectShut c = false := by simpa using hj
    rw [Egress.drainAfresh_sends ch hh hj]
    refine Egress.drainCharacter_ok (by exact hs) hi rfl hcur hl rfl ?_ (fun hop => by simp [ho hop] at hh)
      (by simpa [Egress.InStep, hs, hh] using hb)
    rcases (hk c hh).1 with ht | hd
    · exact .inr ((isTerminator_iff c).mp ht)
    · exact .inl hd

end

end Sys2Proof.Machine
end

section
/-! What each operation leaves of the connection map: what it keeps of every egress, what it keeps of every egress but
its own, and what it keeps of the stream of its own (R30, R49). -/

namespace Sys2Proof.Machine

/-! ### Operations that leave the map alone -/

/-- The ingresses, the generator, the selectors, the guard records and the pool are as they were. -/
structure State.SameMap (s t : State) : Prop where
  ports : t.ports = s.ports
  pattern : t.pattern = s.pattern
  egresses : t.egresses = s.egresses
  guards : t.guards = s.guards
  pool : t.pool = s.pool

theorem State.SameMap.refl (s : State) : s.SameMap s := ⟨rfl, rfl, rfl, rfl, rfl⟩

theorem State.SameMap.trans {s t u : State} (h : s.SameMap t) (k : t.SameMap u) : s.SameMap u :=
  ⟨k.ports.trans h.ports, k.pattern.trans h.pattern, k.egresses.trans h.egresses, k.guards.trans h.guards,
    k.pool.trans h.pool⟩

theorem State.arbitrate_sameMap (s : State) : s.SameMap s.arbitrate := by
  obtain ⟨cs, ns, l, h⟩ := s.arbitrate_touches
  rw [h]
  exact ⟨rfl, rfl, rfl, rfl, rfl⟩

theorem State.notify_sameMap (s : State) (b : NoticeBody) : s.SameMap (s.notify b) := by
  obtain ⟨cs, ns, l, h⟩ := s.notify_touches b
  rw [h]
  exact ⟨rfl, rfl, rfl, rfl, rfl⟩

theorem State.occur_sameMap (s : State) (c : CondId) : s.SameMap (s.occur c) := by
  obtain ⟨cs, ns, l, h⟩ := s.occur_touches c
  rw [h]
  exact ⟨rfl, rfl, rfl, rfl, rfl⟩

theorem State.groupTo_sameMap (s : State) (m : Membership) : s.SameMap (s.groupTo m) := by
  unfold State.groupTo
  split <;> exact ⟨rfl, rfl, rfl, rfl, rfl⟩

theorem State.groupEnter_sameMap (s : State) (r : GroupPlan) : s.SameMap (s.groupEnter r) := by
  unfold State.groupEnter State.groupRelease
  split <;> exact s.groupTo_sameMap _

theorem State.groupLineEvent_sameMap (s : State) : s.SameMap s.groupLineEvent := by
  unfold State.groupLineEvent
  split
  · exact .refl s
  · rename_i r _
    split
    · split
      · exact s.groupTo_sameMap _
      · exact .refl s
    · split
      · exact .refl s
      · exact s.groupTo_sameMap _
    all_goals exact .refl s

/-! ### Operations of one egress -/

/-- From `s` to `t` no egress but `e` has moved, nor its guard record or its INJECT view, and `e` has its entry record
still. -/
structure State.OnlyAt (e : Port) (s t : State) : Prop where
  ports : t.ports = s.ports
  pattern : t.pattern = s.pattern
  entry : t.egresses[e].entry = s.egresses[e].entry
  egresses : ∀ j : Port, j ≠ e → t.egresses[j] = s.egresses[j]
  guards : ∀ j : Port, j ≠ e → t.guards[j] = s.guards[j]
  views : ∀ j : Port, j ≠ e → t.pool.views[j] = s.pool.views[j]

/-- From `s` to `t` egress `e` sends the stream it sent, by the same selector state. -/
structure State.KeepsStream (e : Port) (s t : State) : Prop where
  ports : t.ports = s.ports
  pattern : t.pattern = s.pattern
  sending : t.pool.views[e].sending.isNone = s.pool.views[e].sending.isNone
  egress : ∃ entry settle, t.egresses[e] = { s.egresses[e] with entry := entry, planSettle := settle }

section
variable {e : Port} {s t u : State}

theorem State.SameMap.onlyAt (h : s.SameMap t) (e : Port) : State.OnlyAt e s t :=
  ⟨h.ports, h.pattern, by rw [h.egresses], fun _ _ => by rw [h.egresses], fun _ _ => by rw [h.guards],
    fun _ _ => by rw [h.pool]⟩

theorem State.SameMap.keepsStream (h : s.SameMap t) (e : Port) : State.KeepsStream e s t :=
  ⟨h.ports, h.pattern, by rw [h.pool], _, _, by rw [h.egresses]⟩

theorem State.OnlyAt.refl (e : Port) (s : State) : State.OnlyAt e s s := (State.SameMap.refl s).onlyAt e

theorem State.OnlyAt.trans (h : State.OnlyAt e s t) (k : State.OnlyAt e t u) : State.OnlyAt e s u :=
  ⟨k.ports.trans h.ports, k.pattern.trans h.pattern, k.entry.trans h.entry,
    fun j hj => (k.egresses j hj).trans (h.egresses j hj), fun j hj => (k.guards j hj).trans (h.guards j hj),
    fun j hj => (k.views j hj).trans (h.views j hj)⟩

theorem State.KeepsStream.refl (e : Port) (s : State) : State.KeepsStream e s s :=
  (State.SameMap.refl s).keepsStream e

theorem State.KeepsStream.trans (h : State.KeepsStream e s t) (k : State.KeepsStream e t u) :
    State.KeepsStream e s u := by
  obtain ⟨_, _, he⟩ := h.egress
  obtain ⟨en, ps, ke⟩ := k.egress
  exact ⟨k.ports.trans h.ports, k.pattern.trans h.pattern, k.sending.trans h.sending, en, ps, by rw [ke, he]⟩

/-- What one egress does leaves the stream of any other (R49). -/
theorem State.OnlyAt.keepsStream {j : Port} (h : State.OnlyAt e s t) (hj : j ≠ e) : State.KeepsStream j s t :=
  ⟨h.ports, h.pattern, by rw [h.views j hj], _, _, by rw [h.egresses j hj]⟩

theorem State.setGuard_onlyAt (s : State) (e : Port) (r : Option Guard) : State.OnlyAt e s (s.setGuard e r) :=
  ⟨rfl, rfl, rfl, fun _ _ => rfl, fun j hj => setGuard_other s e r j hj, fun _ _ => rfl⟩

theorem State.setGuard_keeps (s : State) (e j : Port) (r : Option Guard) : State.KeepsStream j s (s.setGuard e r) :=
  ⟨rfl, rfl, rfl, _, _, rfl⟩

theorem State.guardTo_onlyAt (s : State) (e : Port) (g : GuardState) : State.OnlyAt e s (s.guardTo e g) :=
  s.setGuard_onlyAt e _

theorem State.setEgress_onlyAt (s : State) (e : Port) (g : Egress) (hg : g.entry = s.egresses[e].entry) :
    State.OnlyAt e s (s.setEgress e g) :=
  ⟨rfl, rfl, by rw [setEgress_same, hg], fun j hj => setEgress_other s e g j hj, fun _ _ => rfl, fun _ _ => rfl⟩

theorem setView_other (p : Pool) (e j : Port) (v : View) (hj : j ≠ e) : (p.setView e v).views[j] = p.views[j] := by
  have : e.val ≠ j.val := fun h => hj (Fin.ext h.symm)
  simp [Pool.setView, this]

@[simp] theorem setView_same (p : Pool) (e : Port) (v : View) : (p.setView e v).views[e] = v := by
  simp [Pool.setView]

/-- A pool in which no view but that of `e` differs. -/
theorem State.setPool_onlyAt (s : State) (e : Port) (p : Pool)
    (hp : ∀ j : Port, j ≠ e → p.views[j] = s.pool.views[j]) : State.OnlyAt e s (s.setPool p) :=
  ⟨rfl, rfl, rfl, fun _ _ => rfl, fun _ _ => rfl, hp⟩

theorem State.setPool_keeps (s : State) (e : Port) (p : Pool)
    (hp : p.views[e].sending.isNone = s.pool.views[e].sending.isNone) : State.KeepsStream e s (s.setPool p) :=
  ⟨rfl, rfl, hp, _, _, rfl⟩

/-! ### The injection buffer -/

theorem discard_other (p : Pool) (e j : Port) (hj : j ≠ e) : (p.discard e).views[j] = p.views[j] :=
  setView_other p e j _ hj

theorem discard_sending (p : Pool) (e : Port) : (p.discard e).views[e].sending = p.views[e].sending := by
  have h : (p.discard e).views[e] = { p.views[e] with queue := [] } := setView_same p e _
  rw [h]

theorem State.injectDiscard_onlyAt (s : State) (e : Port) : State.OnlyAt e s (s.injectDiscard e) := by
  have h := s.setPool_onlyAt e (s.pool.discard e) fun j hj => discard_other _ e j hj
  unfold State.injectDiscard
  dsimp only
  split
  · exact h
  · exact h.trans ((State.notify_sameMap _ _).onlyAt e)

theorem State.injectDiscard_keeps (s : State) (e : Port) : State.KeepsStream e s (s.injectDiscard e) := by
  have h := s.setPool_keeps e (s.pool.discard e) (by rw [discard_sending])
  unfold State.injectDiscard
  dsimp only
  split
  · exact h
  · exact h.trans ((State.notify_sameMap _ _).keepsStream e)

theorem State.giveBack_onlyAt (s : State) (e : Port) (v : View) (d n : Nat) :
    State.OnlyAt e s (s.setPool ((s.pool.setView e v).giveBack d n)) :=
  s.setPool_onlyAt e _ fun j hj => setView_other s.pool e j v hj

theorem State.injectCut_onlyAt (s : State) (e : Port) : State.OnlyAt e s (s.injectCut e) := by
  unfold State.injectCut
  dsimp only
  split
  · exact .refl e s
  · exact (s.giveBack_onlyAt e _ 1 _).trans ((State.notify_sameMap _ _).onlyAt e)

theorem State.injectSent_onlyAt (s : State) (e : Port) : State.OnlyAt e s (s.injectSent e) := by
  unfold State.injectSent
  dsimp only
  split
  · exact .refl e s
  · split
    · exact (s.giveBack_onlyAt e _ 1 _).trans ((State.notify_sameMap _ _).onlyAt e)
    · exact s.giveBack_onlyAt e _ 1 _

/-- The view of `e` sends no frame; nothing else of what the streams depend on has changed. -/
structure State.FrameEnded (e : Port) (s t : State) : Prop where
  ports : t.ports = s.ports
  pattern : t.pattern = s.pattern
  sending : t.pool.views[e].sending = none
  egress : t.egresses[e] = s.egresses[e]

theorem State.FrameEnded.notify (h : State.FrameEnded e s t) (b : NoticeBody) : State.FrameEnded e s (t.notify b) := by
  have k := t.notify_sameMap b
  exact ⟨k.ports.trans h.ports, k.pattern.trans h.pattern, by rw [k.pool, h.sending], by rw [k.egresses, h.egress]⟩

theorem State.frameEnded_of_none (h : s.pool.views[e].sending = none) : State.FrameEnded e s s := ⟨rfl, rfl, h, rfl⟩

theorem State.frameEnded_giveBack (s : State) (e : Port) (d n : Nat) :
    State.FrameEnded e s (s.setPool ((s.pool.setView e s.pool.views[e].ended).giveBack d n)) :=
  ⟨rfl, rfl, by
    have h : ((s.pool.setView e s.pool.views[e].ended).giveBack d n).views[e] = s.pool.views[e].ended :=
      setView_same _ e _
    exact (congrArg View.sending h).trans rfl, rfl⟩

theorem State.injectCut_ends (s : State) (e : Port) : State.FrameEnded e s (s.injectCut e) := by
  unfold State.injectCut
  dsimp only
  split
  · rename_i h
    exact State.frameEnded_of_none h
  · exact (s.frameEnded_giveBack e 1 _).notify _

theorem State.injectSent_ends (s : State) (e : Port) : State.FrameEnded e s (s.injectSent e) := by
  unfold State.injectSent
  dsimp only
  split
  · rename_i h
    exact State.frameEnded_of_none h
  · split
    · exact (s.frameEnded_giveBack e 1 _).notify _
    · exact s.frameEnded_giveBack e 1 _

/-! ### Selectors -/

theorem State.settle_onlyAt (s : State) (e : Port) (ch : Change) (o : Settlement) :
    State.OnlyAt e s (s.settle e ch o) := by
  unfold State.settle State.guardSettled
  dsimp only
  split
  · split
    · exact (s.notify_sameMap _).onlyAt e
    · exact .refl e s
  · exact s.setEgress_onlyAt e _ rfl
  · split
    · exact .refl e s
    · split
      · exact s.setGuard_onlyAt e _
      · exact .refl e s

theorem State.settle_keeps (s : State) (e : Port) (ch : Change) (o : Settlement) :
    State.KeepsStream e s (s.settle e ch o) := by
  unfold State.settle State.guardSettled
  dsimp only
  split
  · split
    · exact (s.notify_sameMap _).keepsStream e
    · exact .refl e s
  · exact ⟨rfl, rfl, rfl, _, _, setEgress_same s e _⟩
  · split
    · exact .refl e s
    · split
      · exact s.setGuard_keeps e e _
      · exact .refl e s

theorem State.tryJoin_onlyAt (s : State) (e : Port) : State.OnlyAt e s (s.tryJoin e) := by
  unfold State.tryJoin
  dsimp only
  split
  · exact .refl e s
  · split
    · exact (s.setEgress_onlyAt e _ (by rfl)).trans (State.settle_onlyAt _ e _ _)
    · exact .refl e s

theorem State.leaveFrame_onlyAt (s : State) (e : Port) (ch : Change) : State.OnlyAt e s (s.leaveFrame e ch) := by
  unfold State.leaveFrame
  dsimp only
  split
  · exact (s.setEgress_onlyAt e _ (by rfl)).trans (State.settle_onlyAt _ e _ _)
  · exact (s.setEgress_onlyAt e _ (by rfl)).trans (State.tryJoin_onlyAt _ e)

theorem State.cutLeave_onlyAt (s : State) (e : Port) (ch : Change) : State.OnlyAt e s (s.cutLeave e ch) :=
  (s.setEgress_onlyAt e _ (by rfl)).trans (State.leaveFrame_onlyAt _ e ch)

theorem State.takeIdle_onlyAt (s : State) (e : Port) (ch : Change) : State.OnlyAt e s (s.takeIdle e ch) := by
  unfold State.takeIdle
  dsimp only
  split
  · exact s.settle_onlyAt e ch _
  · split
    · split
      · exact s.cutLeave_onlyAt e _
      · exact s.setEgress_onlyAt e _ rfl
    · exact s.leaveFrame_onlyAt e ch

theorem State.putReleased_onlyAt (s : State) (e : Port) (g : Egress) (hg : g.entry = s.egresses[e].entry) :
    State.OnlyAt e s (s.putReleased e g) := by
  have h := s.setEgress_onlyAt e g hg
  unfold State.putReleased
  dsimp only
  split
  · split
    · exact h.trans (State.setPool_onlyAt _ e _ fun j hj => setView_other _ e j _ hj)
    · exact h
  · exact h

theorem Egress.resume_entry (g : Egress) : g.resume.entry = g.entry := by
  unfold Egress.resume
  split
  · rfl
  · split <;> rfl

theorem Egress.drainCharacter_entry (g : Egress) (c : Character) : (g.drainCharacter c).entry = g.entry := by
  unfold Egress.drainCharacter
  split
  · rfl
  · split
    · rfl
    · split <;> rfl

theorem Egress.drainAfresh_entry (g : Egress) (ch : Change) : (g.drainAfresh ch).entry = g.entry := by
  unfold Egress.drainAfresh
  split
  · rfl
  · dsimp only
    split
    · rfl
    · exact Egress.drainCharacter_entry _ _

theorem State.takeDraining_onlyAt (s : State) (e : Port) (ch : Change) : State.OnlyAt e s (s.takeDraining e ch) := by
  unfold State.takeDraining
  dsimp only
  split
  · exact (s.putReleased_onlyAt e _ (by exact Egress.resume_entry _)).trans (State.settle_onlyAt _ e _ _)
  · split
    · exact s.cutLeave_onlyAt e _
    · exact s.putReleased_onlyAt e _ (Egress.drainAfresh_entry _ ch)

theorem State.actOn_onlyAt (s : State) (e : Port) (ch : Change) : State.OnlyAt e s (s.actOn e ch) := by
  unfold State.actOn
  split
  · exact s.takeIdle_onlyAt e ch
  · exact s.takeIdle_onlyAt e ch
  · exact s.takeDraining_onlyAt e ch
  · exact s.leaveFrame_onlyAt e ch

theorem Egress.injectionPart_onlyAt (g : Egress) (e : Port) (ch : Change) :
    ∀ f ∈ g.injectionPart e ch, ∀ t : State, State.OnlyAt e t (f t) := by
  intro f hf t
  unfold Egress.injectionPart at hf
  split at hf
  · rcases List.mem_cons.mp hf with rfl | hf
    · exact t.injectDiscard_onlyAt e
    · split at hf
      · rw [List.mem_singleton.mp hf]
        exact t.injectCut_onlyAt e
      · exact absurd hf List.not_mem_nil
  · exact absurd hf List.not_mem_nil

theorem Egress.selectorPart_onlyAt (g : Egress) (e : Port) (ch : Change) :
    ∀ f ∈ g.selectorPart e ch, ∀ t : State, State.OnlyAt e t (f t) := by
  intro f hf t
  rcases List.mem_append.mp hf with hf | hf
  · obtain ⟨old, _, rfl⟩ := List.mem_map.mp hf
    exact t.settle_onlyAt e _ _
  · rw [List.mem_singleton.mp hf]
    exact t.actOn_onlyAt e ch

theorem State.together_onlyAt (s : State) (e : Port) (blocks : List (List (State → State)))
    (hf : ∀ b ∈ blocks, ∀ f ∈ b, ∀ t : State, State.OnlyAt e t (f t)) : State.OnlyAt e s (s.together blocks) :=
  State.together_keeps (fun t => State.OnlyAt e s t)
    (fun _ _ h => h.trans ⟨rfl, rfl, rfl, fun _ _ => rfl, fun _ _ => rfl, fun _ _ => rfl⟩) s blocks
    (fun b hb f hm t h => h.trans (hf b hb f hm t)) (.refl e s)

theorem State.takeChange_onlyAt (s : State) (e : Port) (ch : Change) : State.OnlyAt e s (s.takeChange e ch) :=
  s.together_onlyAt e _ fun b hb => by
    rcases List.mem_pair.mp hb with rfl | rfl
    · exact Egress.injectionPart_onlyAt _ e ch
    · exact Egress.selectorPart_onlyAt _ e ch

/-- A change on one egress disturbs no other (R49): what a guard's move does is its own egress's. -/
theorem State.guardParts_onlyAt (s : State) (e : Port) (m : GuardMove) :
    ∀ b ∈ s.guardParts e m, ∀ f ∈ b, ∀ t : State, State.OnlyAt e t (f t) := by
  intro b hb f hf t
  unfold State.guardParts at hb
  split at hb
  · split at hb
    · exact absurd hb List.not_mem_nil
    · rw [List.mem_singleton.mp hb] at hf
      rw [List.mem_singleton.mp hf]
      exact t.guardTo_onlyAt e _
    · simp only [List.mem_cons, List.not_mem_nil, or_false] at hb
      rcases hb with rfl | rfl | rfl
      · rcases List.mem_pair.mp hf with rfl | rfl
        · exact t.guardTo_onlyAt e _
        · exact (t.occur_sameMap _).onlyAt e
      · exact Egress.injectionPart_onlyAt _ e _ f hf t
      · exact Egress.selectorPart_onlyAt _ e _ f hf t
  · exact absurd hb List.not_mem_nil

theorem State.guardEventParts_onlyAt (s : State) (e : Port) (ev : GuardEvent) :
    ∀ b ∈ s.guardEventParts e ev, ∀ f ∈ b, ∀ t : State, State.OnlyAt e t (f t) := by
  unfold State.guardEventParts
  split
  · exact s.guardParts_onlyAt e _
  · exact fun b hb => absurd hb List.not_mem_nil

end

end Sys2Proof.Machine
end

section
/-! What blocks that act together reach (R153), and the streams of the egresses under a change (R30). -/

namespace Sys2Proof.Machine

/-! ### What every turn keeps, and what one of them brings about -/

theorem State.TakingTurns.keeps (P : State → Prop) (hd : ∀ t n, P t → P (t.setDraws n))
    (turns : List (State → State)) (blocks : List (List (State → State)))
    (hf : ∀ b ∈ blocks, ∀ f ∈ b, ∀ t, P t → P (f t)) (s t : State) (ht : State.TakingTurns turns blocks s t)
    (h : P s) : P t := by
  induction turns generalizing blocks s with
  | nil => exact ht.2 ▸ h
  | cons f turns ih =>
    obtain ⟨k, draws, rest, hk, ht⟩ := ht
    have hm := List.mem_of_getElem? hk
    refine ih (blocks.set k rest) (fun b hb g hg => ?_) _ ht (hf _ hm f List.mem_cons_self _ (hd _ _ h))
    rcases List.mem_or_eq_of_mem_set hb with hb | rfl
    · exact hf b hb g hg
    · exact hf _ hm g (List.mem_cons_of_mem _ hg)

theorem State.TakingTurns.reaches (P Q : State → Prop) (hd : ∀ t n, P t → P (t.setDraws n))
    (hdq : ∀ t n, Q t → Q (t.setDraws n)) (turns : List (State → State)) (blocks : List (List (State → State)))
    (hf : ∀ b ∈ blocks, ∀ f ∈ b, ∀ t, P t → P (f t)) (hq : ∀ b ∈ blocks, ∀ f ∈ b, ∀ t, Q t → Q (f t))
    (s t : State) (ht : State.TakingTurns turns blocks s t)
    (hone : ∃ b ∈ blocks, ∃ f ∈ b, ∀ t, P t → Q (f t)) (h : P s) : Q t := by
  induction turns generalizing blocks s with
  | nil =>
    obtain ⟨b, hb, f, hfb, -⟩ := hone
    rw [ht.1 b hb] at hfb
    exact absurd hfb List.not_mem_nil
  | cons f turns ih =>
    obtain ⟨k, draws, rest, hk, ht⟩ := ht
    have hm := List.mem_of_getElem? hk
    have hsub : ∀ b ∈ blocks.set k rest, ∀ g ∈ b, ∃ b' ∈ blocks, g ∈ b' := fun b hb g hg => by
      rcases List.mem_or_eq_of_mem_set hb with hb | rfl
      · exact ⟨b, hb, hg⟩
      · exact ⟨_, hm, List.mem_cons_of_mem _ hg⟩
    have hf' : ∀ b ∈ blocks.set k rest, ∀ g ∈ b, ∀ t, P t → P (g t) := fun b hb g hg =>
      let ⟨b', hb', hg'⟩ := hsub b hb g hg
      hf b' hb' g hg'
    have hq' : ∀ b ∈ blocks.set k rest, ∀ g ∈ b, ∀ t, Q t → Q (g t) := fun b hb g hg =>
      let ⟨b', hb', hg'⟩ := hsub b hb g hg
      hq b' hb' g hg'
    by_cases hnow : ∀ t, P t → Q (f t)
    · exact State.TakingTurns.keeps Q hdq turns _ hq' _ t ht (hnow _ (hd _ _ h))
    · refine ih _ hf' hq' _ ht ?_ (hf _ hm f List.mem_cons_self _ (hd _ _ h))
      obtain ⟨b, hb, g, hg, hgq⟩ := hone
      obtain ⟨j, hj, rfl⟩ := List.getElem_of_mem hb
      by_cases hjk : k = j
      · subst hjk
        rw [List.getElem?_eq_getElem hj, Option.some.injEq] at hk
        rw [hk] at hg
        rcases List.mem_cons.mp hg with rfl | hg
        · exact absurd hgq hnow
        · exact ⟨rest, List.mem_set hj rest, g, hg, hgq⟩
      · refine ⟨blocks[j], ?_, g, hg, hgq⟩
        have hj' : j < (blocks.set k rest).length := by rwa [List.length_set]
        have := List.getElem_mem hj'
        rwa [List.getElem_set_ne hjk] at this

/-- Where one of the things that the blocks do brings about `Q`, whatever has been done before, and none of them
undoes it, it holds at the end. -/
theorem State.together_reaches (P Q : State → Prop) (hd : ∀ t n, P t → P (t.setDraws n))
    (hdq : ∀ t n, Q t → Q (t.setDraws n)) (s : State) (blocks : List (List (State → State)))
    (hf : ∀ b ∈ blocks, ∀ f ∈ b, ∀ t, P t → P (f t)) (hq : ∀ b ∈ blocks, ∀ f ∈ b, ∀ t, Q t → Q (f t))
    (hone : ∃ b ∈ blocks, ∃ f ∈ b, ∀ t, P t → Q (f t)) (h : P s) : Q (s.together blocks) := by
  obtain ⟨turns, ht⟩ := s.together_order blocks
  exact State.TakingTurns.reaches P Q hd hdq turns blocks hf hq s _ ht hone h

/-! ### The stream of one egress -/

section
variable {e : Port} {s t : State} {opened : Source → Prop}

theorem State.KeepsStream.betweenFrames (h : State.KeepsStream e s t) (src : Source) :
    t.betweenFrames e src = s.betweenFrames e src := by
  cases src with
  | ingress p => simp only [State.betweenFrames, h.ports]
  | pattern => simp only [State.betweenFrames, h.pattern]
  | inject => exact h.sending
  | fill => rfl
  | hold => rfl

@[simp] theorem setEgress_betweenFrames (s : State) (e j : Port) (g : Egress) :
    (s.setEgress e g).betweenFrames j = s.betweenFrames j := by
  funext src
  cases src <;> rfl

/-- The stream of egress `e` is well formed (R30), and `e` closes none of the sources in `opened`. -/
def State.StreamOk (opened : Source → Prop) (e : Port) (s : State) : Prop :=
  s.egresses[e].Ok (s.betweenFrames e) opened

/-- Egress `e` is out of a frame, and its line agrees. -/
def State.OutOfFrame (e : Port) (s : State) : Prop := s.egresses[e].LineAgrees ∧ s.egresses[e].inside = false

/-- The stream of `e` is well formed, and `e` out of a frame. -/
def State.Outside (opened : Source → Prop) (e : Port) (s : State) : Prop :=
  s.StreamOk opened e ∧ s.egresses[e].inside = false

/-- The stream of `e` is well formed, and `e` is not in a frame of INJECT, which could be cut off. -/
def State.OffInject (opened : Source → Prop) (e : Port) (s : State) : Prop :=
  s.StreamOk opened e ∧ (s.egresses[e].current = .inject → s.egresses[e].inside = false)

theorem State.Outside.offInject (h : s.Outside opened e) : s.OffInject opened e := ⟨h.1, fun _ => h.2⟩

theorem State.Outside.outOfFrame (h : s.Outside opened e) : s.OutOfFrame e := ⟨h.1.line, h.2⟩

theorem Egress.Ok.record {g : Egress} {b : Source → Bool} (h : g.Ok b opened) (entry : Entry)
    (settle : Option PlanSettle) : ({ g with entry := entry, planSettle := settle } : Egress).Ok b opened :=
  ⟨h.wf, h.inStep, h.line, h.opened⟩

theorem State.KeepsStream.streamOk (h : State.KeepsStream e s t) (k : s.StreamOk opened e) : t.StreamOk opened e := by
  obtain ⟨en, ps, he⟩ := h.egress
  unfold State.StreamOk
  rw [he]
  exact (k.congr h.betweenFrames).record en ps

/-- What depends on the selector state of `e` and on the sources alone is kept with its stream. -/
theorem State.KeepsStream.offInject (h : State.KeepsStream e s t) (k : s.OffInject opened e) :
    t.OffInject opened e := by
  refine ⟨h.streamOk k.1, ?_⟩
  obtain ⟨en, ps, he⟩ := h.egress
  rw [he]
  exact k.2

theorem State.KeepsStream.outside (h : State.KeepsStream e s t) (k : s.Outside opened e) : t.Outside opened e := by
  refine ⟨h.streamOk k.1, ?_⟩
  obtain ⟨en, ps, he⟩ := h.egress
  rw [he]
  exact k.2

theorem State.KeepsStream.outOfFrame (h : State.KeepsStream e s t) (k : s.OutOfFrame e) : t.OutOfFrame e := by
  obtain ⟨en, ps, he⟩ := h.egress
  unfold State.OutOfFrame
  rw [he]
  exact k

theorem State.setEgress_streamOk {g : Egress} (h : g.Ok (s.betweenFrames e) opened) :
    (s.setEgress e g).StreamOk opened e := by
  unfold State.StreamOk
  rw [setEgress_same, setEgress_betweenFrames]
  exact h

theorem State.setEgress_outside {g : Egress} (h : g.Ok (s.betweenFrames e) opened) (hi : g.inside = false) :
    (s.setEgress e g).Outside opened e := by
  refine ⟨State.setEgress_streamOk h, ?_⟩
  rw [setEgress_same]
  exact hi

/-! ### Joining and leaving a frame (R36, R38) -/

/-- A joining egress joins its target as soon as that is between frames, so that it closes no source. -/
theorem State.tryJoin_outside (hs : s.egresses[e].state = .joining) (ho : s.OutOfFrame e)
    (hh : s.egresses[e].held = none) (hc : s.egresses[e].change.isSome) : (s.tryJoin e).Outside opened e := by
  obtain ⟨hl, hi⟩ := ho
  obtain ⟨ch, hc⟩ := Option.isSome_iff_exists.mp hc
  unfold State.tryJoin
  simp only [hc, hs, decide_true, Bool.true_and]
  split
  · rename_i hb
    refine (State.settle_keeps _ e ch _).outside (State.setEgress_outside ?_ hi)
    refine (Egress.ok_steady rfl).mpr ⟨rfl, fun ht => ?_, hh, ?_, hl⟩
    · rw [show ch.target = .hold from ht] at hb
      cases hb
    · show s.egresses[e].inside = !s.betweenFrames e ch.target
      rw [hi, hb]
      rfl
  · rename_i hb
    exact ⟨(Egress.ok_joining hs).mpr ⟨hi, hh, ⟨ch, hc, fun _ => by simpa using hb⟩, hl⟩, hi⟩

theorem State.lineOnLeaving_agrees (ch : Change) (h : s.OutOfFrame e) (g : Egress)
    (hl : g.line = s.lineOnLeaving e ch) (hi : g.inside = false) : g.LineAgrees := by
  obtain ⟨ho, hin⟩ := h
  unfold State.lineOnLeaving at hl
  dsimp only at hl
  split at hl
  · simp only [Egress.LineAgrees, hl, hi]
  · exact ho.congr hl (hi.trans hin.symm)

/-- An egress out of its frame is OFF, joins its target or has joined it (R36). -/
theorem State.leaveFrame_outside (ch : Change) (h : s.OutOfFrame e) : (s.leaveFrame e ch).Outside opened e := by
  unfold State.leaveFrame
  dsimp only
  split
  · refine (State.settle_keeps _ e ch _).outside (State.setEgress_outside ?_ rfl)
    exact (Egress.ok_off rfl).mpr ⟨rfl, rfl, rfl, rfl, h.1.congr rfl h.2.symm⟩
  · refine State.tryJoin_outside (by rw [setEgress_same]) ⟨?_, ?_⟩ (by rw [setEgress_same]) ?_
    · rw [setEgress_same]
      exact State.lineOnLeaving_agrees ch h _ rfl rfl
    · rw [setEgress_same]
    · rw [setEgress_same]
      rfl

/-- A cut sends ABORT and leaves the frame, wherever the egress stood (R35, R39). -/
theorem State.cutLeave_outside (s : State) (e : Port) (ch : Change) : (s.cutLeave e ch).Outside opened e := by
  refine State.leaveFrame_outside ch ⟨?_, ?_⟩ <;> rw [setEgress_same]
  simp [Egress.LineAgrees]

/-! ### Taking a change (R33 to R41) -/

theorem State.putReleased_streamOk {g : Egress} (h : g.Ok (s.betweenFrames e) opened) :
    (s.putReleased e g).StreamOk opened e := by
  have k := State.setEgress_streamOk (s := s) h
  unfold State.putReleased
  dsimp only
  split
  · rename_i f _ hf _
    split
    · refine (State.setPool_keeps _ e _ ?_).streamOk k
      rw [setView_same]
      simp only [setEgress_pool, hf, Option.isNone_some]
    · exact k
  · exact k

theorem Egress.Ok.outOfFrame {g : Egress} {b : Source → Bool} (h : g.Ok b opened) (hi : g.inside = false) :
    g.LineAgrees ∧ g.inside = false := ⟨h.line, hi⟩

theorem State.takeIdle_streamOk (ch : Change) (hs : s.egresses[e].state = .off ∨ s.egresses[e].state = .steady)
    (h : s.StreamOk opened e) : (s.takeIdle e ch).StreamOk opened e := by
  unfold State.takeIdle
  dsimp only
  split
  · exact (s.settle_keeps e ch _).streamOk h
  · split
    · rename_i hi
      have hs : s.egresses[e].state = .steady := hs.resolve_left fun hs => by
        rw [((Egress.ok_off hs).mp h).1] at hi
        cases hi
      split
      · exact (s.cutLeave_outside e _).1
      · obtain ⟨-, h2, h3, h4, h5⟩ := (Egress.ok_steady hs).mp h
        refine State.setEgress_streamOk ((Egress.ok_draining rfl).mpr ⟨hi, rfl, h2, ?_, ?_, h5, fun _ => h3⟩)
        · rintro c hc
          rw [h3] at hc
          cases hc
        · simp only [Egress.InStep, h3]
          rw [hi] at h4
          simpa using h4
    · rename_i hi
      exact (State.leaveFrame_outside ch (h.outOfFrame (by simpa using hi))).1

theorem State.takeDraining_streamOk (ch : Change) (hs : s.egresses[e].state = .draining) (h : s.StreamOk opened e) :
    (s.takeDraining e ch).StreamOk opened e := by
  unfold State.takeDraining
  dsimp only
  split
  · exact (State.settle_keeps _ e ch _).streamOk (State.putReleased_streamOk (Egress.resume_ok hs h))
  · split
    · exact (s.cutLeave_outside e _).1
    · exact State.putReleased_streamOk (Egress.drainAfresh_ok ch hs h)

/-- A selector that takes a change sends a well-formed stream on (R34 to R41). -/
theorem State.actOn_streamOk (ch : Change) (h : s.StreamOk opened e) : (s.actOn e ch).StreamOk opened e := by
  unfold State.actOn
  split
  case h_1 hs => exact State.takeIdle_streamOk ch (.inl hs) h
  case h_2 hs => exact State.takeIdle_streamOk ch (.inr hs) h
  case h_3 hs => exact State.takeDraining_streamOk ch hs h
  case h_4 hs => exact (State.leaveFrame_outside ch (h.outOfFrame ((Egress.ok_joining hs).mp h).1)).1

/-! ### A change that cuts a frame of INJECT (R44, R137) -/

/-- The stream of `e` is well formed but for a frame of INJECT, which the injection buffer may have cut off. -/
def State.CutShort (opened : Source → Prop) (e : Port) (s : State) : Prop :=
  ∃ b, s.egresses[e].Ok b opened ∧ ∀ src, src ≠ .inject → s.betweenFrames e src = b src

theorem State.StreamOk.cutShort (h : s.StreamOk opened e) : s.CutShort opened e := ⟨_, h, fun _ _ => rfl⟩

theorem State.KeepsStream.cutShort (h : State.KeepsStream e s t) (k : s.CutShort opened e) : t.CutShort opened e := by
  obtain ⟨b, hk, hb⟩ := k
  obtain ⟨en, ps, he⟩ := h.egress
  refine ⟨b, ?_, fun src hs => (h.betweenFrames src).trans (hb src hs)⟩
  rw [he]
  exact hk.record en ps

/-- An egress on another source does not depend on its INJECT view. -/
theorem Egress.Ok.off_inject {g : Egress} {b b' : Source → Bool} (h : g.Ok b opened)
    (hb : ∀ src, src ≠ .inject → b' src = b src) (hc : g.current ≠ .inject) (hi : ¬ opened .inject) :
    g.Ok b' opened := by
  refine ⟨h.wf, h.inStep.of_current (hb _ hc), h.line, fun src hs hcl => h.opened src hs ?_⟩
  have hne : src ≠ .inject := fun h => hi (h ▸ hs)
  unfold Egress.Closes at hcl ⊢
  rwa [hb src hne] at hcl

theorem State.FrameEnded.betweenFrames (h : State.FrameEnded e s t) (src : Source) (hs : src ≠ .inject) :
    t.betweenFrames e src = s.betweenFrames e src := by
  cases src with
  | ingress p => simp only [State.betweenFrames, h.ports]
  | pattern => simp only [State.betweenFrames, h.pattern]
  | inject => exact absurd rfl hs
  | fill => rfl
  | hold => rfl

theorem State.FrameEnded.cutShort (h : State.FrameEnded e s t) (k : s.CutShort opened e) : t.CutShort opened e := by
  obtain ⟨b, hk, hb⟩ := k
  exact ⟨b, h.egress ▸ hk, fun src hs => (h.betweenFrames src hs).trans (hb src hs)⟩

theorem State.FrameEnded.outOfFrame (h : State.FrameEnded e s t) (k : s.OutOfFrame e) : t.OutOfFrame e := by
  unfold State.OutOfFrame
  rw [h.egress]
  exact k

/-- Where the egress is in no frame of INJECT, the end of one leaves its stream well formed. -/
theorem State.FrameEnded.offInject (h : State.FrameEnded e s t) (hno : ¬ opened .inject) (k : s.OffInject opened e) :
    t.OffInject opened e := by
  obtain ⟨k, hi⟩ := k
  refine ⟨?_, by rw [h.egress]; exact hi⟩
  unfold State.StreamOk
  rw [h.egress]
  by_cases hc : s.egresses[e].current = .inject
  · replace hi := hi hc
    have hb : t.betweenFrames e .inject = true := congrArg Option.isNone h.sending
    cases hs : s.egresses[e].state with
    | off =>
      have := ((Egress.ok_off hs).mp k).2.2.1
      rw [hc] at this
      cases this
    | steady =>
      obtain ⟨h1, h2, h3, -, h5⟩ := (Egress.ok_steady hs).mp k
      exact (Egress.ok_steady hs).mpr ⟨h1, h2, h3, by rw [hi, hc, hb]; rfl, h5⟩
    | joining =>
      obtain ⟨h1, h2, ⟨ch, h3, h4⟩, h5⟩ := (Egress.ok_joining hs).mp k
      refine (Egress.ok_joining hs).mpr ⟨h1, h2, ⟨ch, h3, fun ho => ?_⟩, h5⟩
      rw [h.betweenFrames _ fun ht => hno (ht ▸ ho)]
      exact h4 ho
    | draining =>
      have := ((Egress.ok_draining hs).mp k).1
      rw [hi] at this
      cases this
  · exact k.off_inject (fun src hs => h.betweenFrames src hs) hc hno

theorem State.putReleased_egress (s : State) (e : Port) (g : Egress) : (s.putReleased e g).egresses[e] = g := by
  unfold State.putReleased
  dsimp only
  split
  · split <;> exact setEgress_same s e g
  · exact setEgress_same s e g

theorem Egress.resume_current (g : Egress) : g.resume.current = g.current := by
  unfold Egress.resume
  split
  · rfl
  · split <;> rfl

/-- A change that cuts leaves no frame of INJECT in progress, whether or not the injection buffer has cut it off
already (R35, R40, R137). -/
theorem State.actOn_cuts (ch : Change) (hf : ch.policy = .force) (ht : ch.target ≠ .inject) (hno : ¬ opened .inject)
    (h : s.CutShort opened e) : (s.actOn e ch).OffInject opened e := by
  obtain ⟨b, h, hb⟩ := h
  have settled (hc : ch.target = s.egresses[e].current) : s.OffInject opened e :=
    have hne : s.egresses[e].current ≠ .inject := hc ▸ ht
    ⟨h.off_inject hb hne hno, fun h => absurd h hne⟩
  have left (hi : s.egresses[e].inside = false) : (s.leaveFrame e ch).OffInject opened e :=
    (State.leaveFrame_outside ch ⟨h.line, hi⟩).offInject
  have idle : (s.takeIdle e ch).OffInject opened e := by
    unfold State.takeIdle
    dsimp only
    rw [hf]
    split
    · exact (s.settle_keeps e ch _).offInject (settled ‹_›)
    · split
      · exact (s.cutLeave_outside e _).offInject
      · exact left (by simpa using ‹¬ s.egresses[e].inside = true›)
  unfold State.actOn
  split
  case h_1 => exact idle
  case h_2 => exact idle
  case h_3 hs =>
    by_cases hc : ch.target = s.egresses[e].current
    · refine ⟨State.takeDraining_streamOk ch hs (settled hc).1, fun hi => absurd hi ?_⟩
      unfold State.takeDraining
      simp only [hc, if_true]
      obtain ⟨en, ps, he⟩ := (State.settle_keeps (s.putReleased e
        { s.egresses[e].resume with state := .steady, change := none }) e ch .clean).egress
      rw [he, State.putReleased_egress]
      show s.egresses[e].resume.current ≠ .inject
      rw [Egress.resume_current, ← hc]
      exact ht
    · unfold State.takeDraining
      simp only [hc, if_false, hf]
      exact (s.cutLeave_outside e _).offInject
  case h_4 hs => exact left ((Egress.ok_joining hs).mp h).1

end

end Sys2Proof.Machine
end

section
/-! Every operation of the control blocks keeps every egress's stream well formed (R30). -/

namespace Sys2Proof.Machine

/-- From `s` to `t` the ingresses and the generator stay, every egress whose stream was well formed has one still, and
it closes no ingress that it did not close. -/
structure State.StreamReach (s t : State) : Prop where
  ports : t.ports = s.ports
  pattern : t.pattern = s.pattern
  streams : ∀ (opened : Source → Prop) (e : Port), ¬ opened .inject → s.StreamOk opened e → t.StreamOk opened e

section
variable {s t u : State}

theorem State.StreamReach.trans (h : s.StreamReach t) (k : t.StreamReach u) : s.StreamReach u :=
  ⟨k.ports.trans h.ports, k.pattern.trans h.pattern, fun opened e ho hs =>
    k.streams opened e ho (h.streams opened e ho hs)⟩

theorem State.StreamReach.of_keeps (h : ∀ e : Port, State.KeepsStream e s t) : s.StreamReach t :=
  ⟨(h 0).ports, (h 0).pattern, fun _ e _ => (h e).streamOk⟩

theorem State.SameMap.stream (h : s.SameMap t) : s.StreamReach t := .of_keeps h.keepsStream

theorem State.StreamReach.refl (s : State) : s.StreamReach s := (State.SameMap.refl s).stream

/-- An operation of egress `e` that keeps the stream of `e`. -/
theorem State.OnlyAt.stream {e : Port} (h : State.OnlyAt e s t) (k : State.KeepsStream e s t) : s.StreamReach t :=
  .of_keeps fun j => if hj : j = e then hj ▸ k else h.keepsStream hj

theorem State.setDraws_sameMap (s : State) (n : Nat) : s.SameMap (s.setDraws n) := ⟨rfl, rfl, rfl, rfl, rfl⟩

/-! ### A change and the blocks that act with it (R33, R153) -/

theorem Egress.mem_injectionPart {g : Egress} {e : Port} {ch : Change} {f : State → State}
    (h : f ∈ g.injectionPart e ch) : f = (State.injectDiscard · e)
      ∨ (f = (State.injectCut · e) ∧ ch.policy = .force ∧ ch.target ≠ .inject) := by
  unfold Egress.injectionPart at h
  split at h
  · rename_i hc
    rcases List.mem_cons.mp h with rfl | h
    · exact .inl rfl
    · split at h
      · rename_i hcut
        simp only [Egress.cutBy, Bool.and_eq_true, decide_eq_true_eq] at hcut
        exact .inr ⟨List.mem_singleton.mp h, hcut.1.1, hc.2⟩
      · exact absurd h List.not_mem_nil
  · exact absurd h List.not_mem_nil

theorem Egress.mem_selectorPart {g : Egress} {e : Port} {ch : Change} {f : State → State} :
    f ∈ g.selectorPart e ch ↔ (∃ old, g.change = some old ∧ f = fun t => State.settle t e old .superseded)
      ∨ f = (State.actOn · e ch) := by
  unfold Egress.selectorPart
  simp [eq_comm]

/-- Where what the blocks do keeps the stream of `e`, but for the injection buffer's and the selector's part in a
change on `e`, the stream of `e` is well formed at the end. -/
theorem State.together_change {opened : Source → Prop} (ho : ¬ opened .inject) (g : Egress) (e : Port) (ch : Change)
    (blocks : List (List (State → State))) (hsel : g.selectorPart e ch ∈ blocks)
    (hf : ∀ b ∈ blocks, ∀ f ∈ b,
      (∀ t, State.KeepsStream e t (f t)) ∨ f ∈ g.injectionPart e ch ∨ f ∈ g.selectorPart e ch)
    (h : s.StreamOk opened e) : (s.together blocks).StreamOk opened e := by
  have plain : ∀ b ∈ blocks, ∀ f ∈ b, (∀ t, State.KeepsStream e t (f t)) ∨ f = (State.actOn · e ch)
      ∨ (f = (State.injectCut · e) ∧ ch.policy = .force ∧ ch.target ≠ .inject) := by
    intro b hb f hfb
    rcases hf b hb f hfb with hk | hi | hs
    · exact .inl hk
    · rcases Egress.mem_injectionPart hi with rfl | hcut
      · exact .inl fun t => t.injectDiscard_keeps e
      · exact .inr (.inr hcut)
    · rcases Egress.mem_selectorPart.mp hs with ⟨old, -, rfl⟩ | rfl
      · exact .inl fun t => t.settle_keeps e old _
      · exact .inr (.inl rfl)
  have draws (t : State) (n : Nat) : State.KeepsStream e t (t.setDraws n) := (t.setDraws_sameMap n).keepsStream e
  by_cases hcut : ch.policy = .force ∧ ch.target ≠ .inject
  · obtain ⟨hp, ht⟩ := hcut
    refine (State.together_reaches (State.CutShort opened e) (State.OffInject opened e)
      (fun t n => (draws t n).cutShort) (fun t n => (draws t n).offInject) s blocks (fun b hb f hfb t => ?_)
      (fun b hb f hfb t => ?_) ⟨_, hsel, _, Egress.mem_selectorPart.mpr (.inr rfl),
        fun t => State.actOn_cuts ch hp ht ho⟩ h.cutShort).1
    · rcases plain b hb f hfb with hk | rfl | ⟨rfl, -⟩
      · exact (hk t).cutShort
      · exact fun h => (State.actOn_cuts ch hp ht ho h).1.cutShort
      · exact (t.injectCut_ends e).cutShort
    · rcases plain b hb f hfb with hk | rfl | ⟨rfl, -⟩
      · exact (hk t).offInject
      · exact fun h => State.actOn_cuts ch hp ht ho h.1.cutShort
      · exact (t.injectCut_ends e).offInject ho
  · refine State.together_keeps (State.StreamOk opened e) (fun t n => (draws t n).streamOk) s blocks
      (fun b hb f hfb t => ?_) h
    rcases plain b hb f hfb with hk | rfl | ⟨-, hc⟩
    · exact (hk t).streamOk
    · exact State.actOn_streamOk ch
    · exact absurd hc hcut

theorem State.takeChange_stream (s : State) (e : Port) (ch : Change) : s.StreamReach (s.takeChange e ch) := by
  have hat := s.takeChange_onlyAt e ch
  refine ⟨hat.ports, hat.pattern, fun opened j ho h => ?_⟩
  by_cases hj : j = e
  · subst hj
    refine State.together_change ho s.egresses[j] j ch _ (by simp) (fun b hb f hf => ?_) h
    rcases List.mem_pair.mp hb with rfl | rfl
    · exact .inr (.inl hf)
    · exact .inr (.inr hf)
  · exact (hat.keepsStream hj).streamOk h

/-! ### The moves of guards (R53) -/

theorem State.guardParts_stay (s : State) (e : Port) : s.guardParts e .stay = [] := by
  unfold State.guardParts
  split <;> rfl

theorem State.guardTo_keeps (s : State) (e j : Port) (g : GuardState) : State.KeepsStream j s (s.guardTo e g) :=
  s.setGuard_keeps e j _

/-- The blocks that a guard's move gives something to do: none, the guard alone, or the guard with the condition unit,
the injection buffer and the selector (R53). -/
theorem State.guardParts_cases (s : State) (e : Port) (m : GuardMove) :
    s.guardParts e m = [] ∨ (∃ g, s.guardParts e m = [[(State.guardTo · e g)]])
      ∨ ∃ g ch, s.guardParts e m = [[(State.guardTo · e g), (State.occur · (guardCond e))],
          s.egresses[e].injectionPart e ch, s.egresses[e].selectorPart e ch] := by
  unfold State.guardParts
  split
  · match m with
    | .stay => exact .inl rfl
    | .to g => exact .inr (.inl ⟨g, rfl⟩)
    | .switch sel g => exact .inr (.inr ⟨g, _, rfl⟩)
  · exact .inl rfl

/-- Where what the other blocks do keeps the stream of `e`, the move of its guard leaves it well formed. -/
theorem State.together_move {opened : Source → Prop} (ho : ¬ opened .inject) (e : Port) (m : GuardMove)
    (blocks : List (List (State → State))) (hown : ∀ b ∈ s.guardParts e m, b ∈ blocks)
    (hf : ∀ b ∈ blocks, b ∈ s.guardParts e m ∨ ∀ f ∈ b, ∀ t, State.KeepsStream e t (f t))
    (h : s.StreamOk opened e) : (s.together blocks).StreamOk opened e := by
  have quiet (hq : ∀ b ∈ s.guardParts e m, ∀ f ∈ b, ∀ t, State.KeepsStream e t (f t)) :
      (s.together blocks).StreamOk opened e :=
    State.together_keeps (State.StreamOk opened e)
      (fun t n => ((t.setDraws_sameMap n).keepsStream e).streamOk) s blocks
      (fun b hb f hfb t => ((hf b hb).elim (fun hb => hq b hb f hfb t) (fun hk => hk f hfb t)).streamOk) h
  rcases s.guardParts_cases e m with hm | ⟨g, hm⟩ | ⟨g, ch, hm⟩
  · exact quiet fun b hb => absurd (hm ▸ hb) List.not_mem_nil
  · refine quiet fun b hb f hfb t => ?_
    rw [hm] at hb
    rw [List.mem_singleton.mp hb] at hfb
    rw [List.mem_singleton.mp hfb]
    exact t.guardTo_keeps e e _
  · rw [hm] at hown hf
    refine State.together_change ho s.egresses[e] e ch blocks
      (hown _ (List.mem_cons_of_mem _ (List.mem_cons_of_mem _ List.mem_cons_self))) (fun b hb f hfb => ?_) h
    rcases hf b hb with hb | hk
    · simp only [List.mem_cons, List.not_mem_nil, or_false] at hb
      rcases hb with rfl | rfl | rfl
      · rcases List.mem_pair.mp hfb with rfl | rfl
        · exact .inl fun t => t.guardTo_keeps e e _
        · exact .inl fun t => (t.occur_sameMap _).keepsStream e
      · exact .inr (.inl hfb)
      · exact .inr (.inr hfb)
    · exact .inl (hk f hfb)

/-- Guards that move together, with blocks that leave the map alone: each egress's stream stays well formed. -/
theorem State.together_guards (s : State) (pre : List (List (State → State))) (xs : List Port) (m : Port → GuardMove)
    (hpre : ∀ b ∈ pre, ∀ f ∈ b, ∀ t : State, t.SameMap (f t)) :
    s.StreamReach (s.together (pre ++ xs.flatMap fun e => s.guardParts e (m e))) := by
  have kinds : ∀ b ∈ pre ++ xs.flatMap fun e => s.guardParts e (m e),
      (∀ f ∈ b, ∀ t : State, t.SameMap (f t)) ∨ ∃ e ∈ xs, b ∈ s.guardParts e (m e) := by
    intro b hb
    rcases List.mem_append.mp hb with hb | hb
    · exact .inl (hpre b hb)
    · exact .inr (List.mem_flatMap.mp hb)
  have fixed : (s.together (pre ++ xs.flatMap fun e => s.guardParts e (m e))).ports = s.ports
      ∧ (s.together (pre ++ xs.flatMap fun e => s.guardParts e (m e))).pattern = s.pattern := by
    refine State.together_keeps (fun t => t.ports = s.ports ∧ t.pattern = s.pattern) (fun _ _ h => h) s _
      (fun b hb f hf t h => ?_) ⟨rfl, rfl⟩
    rcases kinds b hb with hk | ⟨e, -, hb⟩
    · exact ⟨(hk f hf t).ports.trans h.1, (hk f hf t).pattern.trans h.2⟩
    · have := s.guardParts_onlyAt e _ b hb f hf t
      exact ⟨this.ports.trans h.1, this.pattern.trans h.2⟩
  refine ⟨fixed.1, fixed.2, fun opened e ho h => ?_⟩
  have others (b) (hb : b ∈ pre ++ xs.flatMap fun e => s.guardParts e (m e)) :
      (e ∈ xs ∧ b ∈ s.guardParts e (m e)) ∨ ∀ f ∈ b, ∀ t, State.KeepsStream e t (f t) := by
    rcases kinds b hb with hk | ⟨j, hj, hb⟩
    · exact .inr fun f hf t => (hk f hf t).keepsStream e
    · by_cases he : e = j
      · exact .inl ⟨he ▸ hj, he ▸ hb⟩
      · exact .inr fun f hf t => (s.guardParts_onlyAt j _ b hb f hf t).keepsStream he
  by_cases hx : e ∈ xs
  · exact State.together_move ho e (m e) _
      (fun b hb => List.mem_append_right _ (List.mem_flatMap.mpr ⟨e, hx, hb⟩))
      (fun b hb => (others b hb).imp_left And.right) h
  · refine State.together_move ho e .stay _ (fun b hb => ?_) (fun b hb => ?_) h
    · rw [s.guardParts_stay] at hb
      exact absurd hb List.not_mem_nil
    · exact .inr ((others b hb).resolve_left fun ⟨he, _⟩ => hx he)

theorem State.guardMoves_stream (s : State) (e : Port) (m : GuardMove) : s.StreamReach (s.guardMoves e m) := by
  have h := s.together_guards [] [e] (fun _ => m) (by simp)
  simpa [State.guardMoves] using h

/-- What a guard does on a change of a line, and as it resumes, is a move. -/
theorem State.guardEventParts_move (s : State) (e : Port) (ev : GuardEvent) :
    ∃ m, s.guardEventParts e ev = s.guardParts e m := by
  unfold State.guardEventParts
  split
  · exact ⟨_, rfl⟩
  · exact ⟨.stay, (s.guardParts_stay e).symm⟩

theorem State.guardLineParts_move (s : State) (e p : Port) (old new : LineState) :
    ∃ m, s.guardLineParts e p old new = s.guardParts e m := by
  unfold State.guardLineParts
  split
  · exact ⟨.stay, (s.guardParts_stay e).symm⟩
  · exact s.guardEventParts_move e _

theorem State.guardResumeParts_move (s : State) (e : Port) : ∃ m, s.guardResumeParts e = s.guardParts e m := by
  unfold State.guardResumeParts
  split
  · exact ⟨_, rfl⟩
  · exact ⟨.stay, (s.guardParts_stay e).symm⟩

/-- The receivers of a line event other than the guards leave the map alone (R8). -/
theorem State.lineParts_split (s : State) (p : Port) (old new : LineState) :
    ∃ pre, s.lineParts p old new = pre ++ allPorts.flatMap (fun e => s.guardLineParts e p old new)
      ∧ ∀ b ∈ pre, ∀ f ∈ b, ∀ t : State, t.SameMap (f t) := by
  refine ⟨_, rfl, fun b hb f hf t => ?_⟩
  rcases List.mem_append.mp hb with hb | hb
  · split at hb
    · rw [List.mem_singleton.mp hb] at hf
      rw [List.mem_singleton.mp hf]
      exact t.occur_sameMap _
    · exact absurd hb List.not_mem_nil
  · split at hb
    · rw [List.mem_singleton.mp hb] at hf
      rw [List.mem_singleton.mp hf]
      exact t.groupLineEvent_sameMap
    · exact absurd hb List.not_mem_nil

theorem State.announceLine_stream (s : State) (p : Port) (old : LineState) : s.StreamReach (s.announceLine p old) := by
  unfold State.announceLine
  dsimp only
  split
  · exact .refl s
  · obtain ⟨pre, hpre, hq⟩ := s.lineParts_split p old s.ports[p].line
    have hm := fun e => s.guardLineParts_move e p old s.ports[p].line
    rw [hpre, show (fun e => s.guardLineParts e p old s.ports[p].line) = fun e => s.guardParts e (hm e).choose from
      funext fun e => (hm e).choose_spec]
    exact s.together_guards pre allPorts _ hq

theorem State.resumeGuards_stream (s : State) (es : List Port) : s.StreamReach (s.resumeGuards es) := by
  unfold State.resumeGuards
  rw [show s.guardResumeParts = fun e => s.guardParts e (s.guardResumeParts_move e).choose from
    funext fun e => (s.guardResumeParts_move e).choose_spec]
  exact s.together_guards [] _ _ (by simp)

/-! ### The operations of the control blocks -/

theorem State.inSomeOrder_stream {α : Type} (s : State) (xs : List α) (f : α → State → State)
    (hf : ∀ x ∈ xs, ∀ t : State, t.StreamReach (f x t)) : s.StreamReach (s.inSomeOrder xs f) :=
  State.inSomeOrder_keeps (fun t => s.StreamReach t) s xs f
    (fun t n h => h.trans (t.setDraws_sameMap n).stream) (fun x hx t h => h.trans (hf x hx t)) (.refl s)

theorem State.foldl_stream {α : Type} (xs : List α) (f : State → α → State)
    (hf : ∀ t x, State.StreamReach t (f t x)) (s : State) : s.StreamReach (xs.foldl f s) := by
  induction xs generalizing s with
  | nil => exact .refl s
  | cons x xs ih => exact (hf s x).trans (ih (f s x))

theorem State.notify_stream (s : State) (b : NoticeBody) : s.StreamReach (s.notify b) := (s.notify_sameMap b).stream

theorem State.occur_stream (s : State) (c : CondId) : s.StreamReach (s.occur c) := (s.occur_sameMap c).stream

theorem State.arbitrate_stream (s : State) : s.StreamReach s.arbitrate := s.arbitrate_sameMap.stream

theorem State.setPlan_stream (s : State) (k : SlotId) (p : Option Plan) : s.StreamReach (s.setPlan k p) :=
  State.SameMap.stream ⟨rfl, rfl, rfl, rfl, rfl⟩

theorem State.setClaim_stream (s : State) (e : Port) (c : Option Byte) : s.StreamReach (s.setClaim e c) :=
  State.SameMap.stream ⟨rfl, rfl, rfl, rfl, rfl⟩

theorem State.setGroup_stream (s : State) (g : Group) : s.StreamReach (s.setGroup g) :=
  State.SameMap.stream ⟨rfl, rfl, rfl, rfl, rfl⟩

theorem State.setLink_stream (s : State) (l : Link) : s.StreamReach (s.setLink l) :=
  State.SameMap.stream ⟨rfl, rfl, rfl, rfl, rfl⟩

theorem State.setGuard_stream (s : State) (e : Port) (r : Option Guard) : s.StreamReach (s.setGuard e r) :=
  .of_keeps fun j => s.setGuard_keeps e j r

theorem State.guardTo_stream (s : State) (e : Port) (g : GuardState) : s.StreamReach (s.guardTo e g) :=
  s.setGuard_stream e _

theorem State.groupTo_stream (s : State) (m : Membership) : s.StreamReach (s.groupTo m) := (s.groupTo_sameMap m).stream

/-- Entry record and settle event are no part of the stream. -/
theorem State.setRecord_stream (s : State) (e : Port) (entry : Entry) (settle : Option PlanSettle) :
    s.StreamReach (s.setEgress e { s.egresses[e] with entry := entry, planSettle := settle }) := by
  refine .of_keeps fun j => ⟨rfl, rfl, rfl, ?_⟩
  by_cases hj : j = e
  · subst hj
    exact ⟨_, _, setEgress_same s j _⟩
  · exact ⟨_, _, setEgress_other s e _ j hj⟩

theorem State.injectDiscard_stream (s : State) (e : Port) : s.StreamReach (s.injectDiscard e) :=
  (s.injectDiscard_onlyAt e).stream (s.injectDiscard_keeps e)

theorem State.newGuard_stream (s : State) (e : Port) (g : GuardState) : s.StreamReach (s.newGuard e g) := by
  unfold State.newGuard
  split
  · exact s.setGuard_stream e _
  · exact (s.setGuard_stream e _).trans (State.SameMap.stream ⟨rfl, rfl, rfl, rfl, rfl⟩)

theorem State.handEdit_stream (s : State) (id : Byte) (n : Nat) (d : Edit) : s.StreamReach (s.handEdit id n d) :=
  ((s.setRecord_stream d.egress d.entry _).trans (State.newGuard_stream _ _ _)).trans
    (State.takeChange_stream _ _ _)

theorem State.firePlan_stream (s : State) (k : SlotId) (epoch : Option Half) (byRequest : Bool) :
    s.StreamReach (s.firePlan k epoch byRequest) := by
  unfold State.firePlan
  split
  · exact .refl s
  · split
    · dsimp only
      refine .trans ?_ (State.foldl_stream _ _ (fun t d => t.handEdit_stream _ _ d) _)
      split
      · exact (s.setPlan_stream _ _).trans (State.notify_stream _ _)
      · exact s.setPlan_stream _ _
    · exact .refl s

theorem State.fireWaiting_stream (s : State) (g : Trigger) : s.StreamReach (s.fireWaiting g) :=
  s.inSomeOrder_stream _ _ fun k _ t => t.firePlan_stream k none false

theorem State.takeGroupFire_stream (s : State) : s.StreamReach s.takeGroupFire := by
  unfold State.takeGroupFire
  split
  · exact .refl s
  · exact s.firePlan_stream _ _ _

theorem State.releaseClaims_stream (s : State) (es : List Port) : s.StreamReach (s.releaseClaims es) :=
  State.foldl_stream es _ (fun t e => t.setClaim_stream e none) s

theorem State.dropStranded_stream (s : State) (p : Plan) : s.StreamReach (s.dropStranded p) :=
  s.inSomeOrder_stream _ _ fun e _ t => t.injectDiscard_stream e

theorem State.groupPlanGone_stream (s : State) : s.StreamReach s.groupPlanGone := by
  unfold State.groupPlanGone
  dsimp only
  have h := s.setGroup_stream { s.group with plan := none }
  split
  · exact h.trans (State.groupTo_stream _ _)
  · exact h.trans (State.groupTo_stream _ _)
  all_goals exact h

theorem State.groupToldGone_stream (s : State) (q : Bool) : s.StreamReach (s.groupToldGone q) := by
  unfold State.groupToldGone
  split
  · exact (s.setGroup_stream _).trans (State.groupPlanGone_stream _)
  · exact s.groupPlanGone_stream

theorem State.letGo_stream (s : State) (p : Plan) (q : Bool) : s.StreamReach (s.letGo p q) := by
  unfold State.letGo
  dsimp only
  have h := ((s.releaseClaims_stream (p.edits.map (·.egress))).trans
    (State.resumeGuards_stream _ (p.edits.map (·.egress)))).trans (State.dropStranded_stream _ p)
  split
  · exact h.trans (State.groupToldGone_stream _ _)
  · exact h

theorem State.expirePlan_stream (s : State) (k : SlotId) (p : Plan) (r : ExpiryReason) (q : Bool) :
    s.StreamReach (s.expirePlan k p r q) :=
  ((s.setPlan_stream _ _).trans (State.letGo_stream _ _ _)).trans (State.notify_stream _ _)

theorem State.groupArmed_stream (s : State) (r : GroupPlan) : s.StreamReach (s.groupArmed r) := by
  unfold State.groupArmed
  dsimp only
  have h := s.setGroup_stream { s.group with plan := some r }
  split
  · exact h.trans (State.groupEnter_sameMap _ r).stream
  all_goals exact h

theorem State.guardSuspend_stream (s : State) (e : Port) : s.StreamReach (s.guardSuspend e) := by
  unfold State.guardSuspend
  split
  · exact .refl s
  · split
    · exact s.guardTo_stream e _
    · exact .refl s

theorem State.takeClaims_stream (s : State) (p : Plan) : s.StreamReach (s.takeClaims p) :=
  State.foldl_stream _ _ (fun t e => (t.setClaim_stream e _).trans (State.guardSuspend_stream _ e)) s

theorem State.armPlan_stream (s : State) (k : SlotId) (p : Plan) : s.StreamReach (s.armPlan k p) := by
  have told (t : State) : t.StreamReach (t.tellArmed p) := by
    unfold State.tellArmed
    split
    · exact t.groupArmed_stream _
    · exact .refl t
  unfold State.armPlan
  dsimp only
  have h := ((s.takeClaims_stream p).trans (State.setPlan_stream _ k
    (some { p with state := .armed, timer := p.armTimer }))).trans (told _)
  split
  · exact h.trans (State.firePlan_stream _ _ _ _)
  · exact h

theorem State.holdOffIfZero_stream (s : State) (e : Port) : s.StreamReach (s.holdOffIfZero e) := by
  unfold State.holdOffIfZero
  split
  · split
    · exact s.guardMoves_stream e _
    · exact .refl s
  · exact .refl s

theorem State.guardInit_stream (s : State) (e : Port) : s.StreamReach (s.guardInit e) := by
  unfold State.guardInit
  split
  · exact (s.setGuard_stream e _).trans (State.guardTo_stream _ e _)
  · exact .refl s

theorem State.completePlan_stream (s : State) (k : SlotId) (p : Plan) : s.StreamReach (s.completePlan k p) := by
  unfold State.completePlan
  dsimp only
  refine .trans ?_ (State.notify_stream _ _)
  split
  · exact (s.setPlan_stream _ _).trans (State.setGroup_stream _ _)
  · exact s.setPlan_stream _ _

theorem State.editSettled_stream (s : State) (k : SlotId) (q : Plan) (e : Port) :
    s.StreamReach (s.editSettled k q e) :=
  (((s.setPlan_stream _ _).trans (State.setClaim_stream _ e none)).trans (State.guardInit_stream _ e)).trans
    (State.holdOffIfZero_stream _ e)

theorem State.takeEditSettle_stream (s : State) (e : Port) (ev : PlanSettle) :
    s.StreamReach (s.takeEditSettle e ev) := by
  unfold State.takeEditSettle
  dsimp only
  have h := s.setRecord_stream e s.egresses[e].entry none
  split
  · exact h
  · split
    · split
      · exact (h.trans (State.editSettled_stream _ _ _ e)).trans (State.completePlan_stream _ _ _)
      · exact h.trans (State.editSettled_stream _ _ _ e)
    · exact h

theorem State.connect_stream (s : State) (e : Port) (entry : Entry) (d : Nat) (n : Bool) (tag : Byte) :
    s.StreamReach (s.connect e entry d n tag) :=
  ((((s.setRecord_stream e entry _).trans (State.newGuard_stream _ _ _)).trans
    (State.guardInit_stream _ e)).trans (State.takeChange_stream _ _ _)).trans (State.holdOffIfZero_stream _ e)

theorem State.hostSwitch_stream (s : State) (e : Port) (sel : Selection) (n : GuardState) :
    s.StreamReach (s.hostSwitch e sel n) := by
  unfold State.hostSwitch
  split
  · exact (s.guardTo_stream e n).trans (State.takeChange_stream _ e _)
  · exact .refl s

theorem State.guardSwitch_stream (s : State) (e : Port) (sel : Selection) (a : Bool) (n : GuardState) :
    s.StreamReach (s.guardSwitch e sel a n) := by
  unfold State.guardSwitch
  split
  · exact s.guardMoves_stream e _
  · exact s.hostSwitch_stream e sel n

theorem State.guardCommand_stream (s : State) (e : Port) (r : Guard) (f : GuardFields) (c : GuardCommand) :
    s.StreamReach (s.guardCommand e r f c) := by
  cases c with
  | lock =>
    unfold State.guardCommand State.guardLock
    dsimp only
    split
    · exact .refl s
    · split
      · exact s.guardSwitch_stream e _ _ _
      · exact s.guardTo_stream e _
  | forceStandby =>
    unfold State.guardCommand State.guardForce
    dsimp only
    split
    · exact .refl s
    · split
      · exact s.guardSwitch_stream e _ _ _
      · exact s.guardTo_stream e _
  | clear =>
    unfold State.guardCommand State.guardClear
    dsimp only
    split
    · exact s.guardMoves_stream e _
    · split
      · exact s.guardMoves_stream e _
      · exact .refl s

/-! ### Drains, joins and frames of INJECT (R37 to R39, R134, R135) -/

/-- An operation of egress `e` after which its stream is well formed. -/
theorem State.OnlyAt.stream_of {e : Port} (h : State.OnlyAt e s t)
    (k : ∀ opened : Source → Prop, ¬ opened .inject → s.StreamOk opened e → t.StreamOk opened e) : s.StreamReach t :=
  ⟨h.ports, h.pattern, fun opened j ho hs =>
    if hj : j = e then hj ▸ k opened ho (hj ▸ hs) else (h.keepsStream hj).streamOk hs⟩

/-- A join that is due completes (R38). -/
theorem State.tryJoin_stream (s : State) (e : Port) : s.StreamReach (s.tryJoin e) := by
  refine (s.tryJoin_onlyAt e).stream_of fun opened _ h => ?_
  by_cases hs : s.egresses[e].state = .joining
  · obtain ⟨hi, hh, ⟨ch, hc, -⟩, hl⟩ := (Egress.ok_joining hs).mp h
    exact (State.tryJoin_outside hs ⟨hl, hi⟩ hh (by rw [hc]; rfl)).1
  · unfold State.tryJoin
    simp only [hs, decide_false, Bool.false_and, Bool.false_eq_true, if_false]
    split <;> exact h

/-- The old frame's terminator is sent and the drain ends, in any order with the frame of INJECT that it ends (R37,
R44). -/
theorem State.endDrain_stream (s : State) (e : Port) (c : Character) (hc : isTerminator c = true) :
    s.StreamReach (s.endDrain e c) := by
  unfold State.endDrain
  dsimp only
  split
  · exact .refl s
  · rename_i ch _
    have sent : (s.setEgress e { s.egresses[e] with line := some c, inside := false, held := none }).OutOfFrame e := by
      unfold State.OutOfFrame
      rw [setEgress_same]
      rcases (isTerminator_iff c).mp hc with rfl | rfl <;> exact ⟨rfl, rfl⟩
    have hat := s.setEgress_onlyAt e { s.egresses[e] with line := some c, inside := false, held := none } rfl
    split
    · have both : ∀ b ∈ [[(State.injectSent · e)], [(State.leaveFrame · e ch)]], ∀ f ∈ b,
          f = (State.injectSent · e) ∨ f = (State.leaveFrame · e ch) := by
        intro b hb f hf
        rcases List.mem_pair.mp hb with rfl | rfl
        · exact .inl (List.mem_singleton.mp hf)
        · exact .inr (List.mem_singleton.mp hf)
      refine (hat.trans (State.together_onlyAt _ e _ fun b hb f hf t => ?_)).stream_of fun opened ho _ => ?_
      · rcases both b hb f hf with rfl | rfl
        · exact t.injectSent_onlyAt e
        · exact t.leaveFrame_onlyAt e ch
      · refine (State.together_reaches (State.OutOfFrame e) (fun t => t.OffInject opened e ∧ t.OutOfFrame e)
          (fun _ _ h => h) (fun _ _ h => h) _ _ (fun b hb f hf t h => ?_) (fun b hb f hf t h => ?_)
          ⟨_, List.mem_cons_of_mem _ List.mem_cons_self, _, List.mem_singleton_self _,
            fun t h => ?_⟩ sent).1.1
        · rcases both b hb f hf with rfl | rfl
          · exact (t.injectSent_ends e).outOfFrame h
          · exact (State.leaveFrame_outside (opened := opened) ch h).outOfFrame
        · rcases both b hb f hf with rfl | rfl
          · exact ⟨(t.injectSent_ends e).offInject ho h.1, (t.injectSent_ends e).outOfFrame h.2⟩
          · have := State.leaveFrame_outside (opened := opened) ch h.2
            exact ⟨this.offInject, this.outOfFrame⟩
        · have := State.leaveFrame_outside (opened := opened) ch h
          exact ⟨this.offInject, this.outOfFrame⟩
    · exact (hat.trans (State.leaveFrame_onlyAt _ e ch)).stream_of fun _ _ _ => (State.leaveFrame_outside ch sent).1

/-- The deadline cuts the old frame, in any order with the frame of INJECT that it cuts off (R39, R44). -/
theorem State.expireDeadline_stream (s : State) (e : Port) : s.StreamReach (s.expireDeadline e) := by
  unfold State.expireDeadline
  split
  · exact .refl s
  · rename_i ch _
    dsimp only
    split
    · have both : ∀ b ∈ [[(State.injectCut · e)], [(State.cutLeave · e { ch with cut := .deadline })]], ∀ f ∈ b,
          f = (State.injectCut · e) ∨ f = (State.cutLeave · e { ch with cut := .deadline }) := by
        intro b hb f hf
        rcases List.mem_pair.mp hb with rfl | rfl
        · exact .inl (List.mem_singleton.mp hf)
        · exact .inr (List.mem_singleton.mp hf)
      refine (State.together_onlyAt _ e _ fun b hb f hf t => ?_).stream_of fun opened ho _ => ?_
      · rcases both b hb f hf with rfl | rfl
        · exact t.injectCut_onlyAt e
        · exact t.cutLeave_onlyAt e _
      · refine (State.together_reaches (fun _ => True) (State.OffInject opened e) (fun _ _ h => h) (fun _ _ h => h) s _
          (fun _ _ _ _ _ _ => trivial) (fun b hb f hf t h => ?_)
          ⟨_, List.mem_cons_of_mem _ List.mem_cons_self, _, List.mem_singleton_self _,
            fun t _ => (t.cutLeave_outside e _).offInject⟩ trivial).1
        rcases both b hb f hf with rfl | rfl
        · exact (t.injectCut_ends e).offInject ho h
        · exact (t.cutLeave_outside e _).offInject
    · exact (s.cutLeave_onlyAt e _).stream_of fun _ _ _ => (s.cutLeave_outside e _).1

end

end Sys2Proof.Machine
end

section
/-! One ingress: what its operations keep of it (R1 to R7), and the clean stream that its tracker gives (R14). -/

namespace Sys2Proof.Machine

/-! ### One read of the tracker (R15 to R19) -/

section
variable (g : Ingress) (maxframe : Nat) (item : ReadItem)

theorem Ingress.track_owedAbort : g.track maxframe .owedAbort
    = { emitted := .abort, inside := true, after := { g with abortDue := false }, event := .none } := rfl

theorem Ingress.track_idle (h : g.tracker = .outside) : g.track maxframe .idle = emitFill g := by
  unfold Ingress.track
  rw [h]
  rfl

/-- Between frames the tracker emits FILL or MARK and stays so, or accepts an OPEN (R15, R18). -/
theorem Ingress.track_between (hi : g.tracker.isInside = false) (hn : item ≠ .owedAbort) :
    ∃ t ks, (g.track maxframe item).after = { g with tracker := t, counters := ks }
      ∧ (((g.track maxframe item).emitted = .opn ∧ t.isInside = true)
        ∨ (((g.track maxframe item).emitted = .fill ∨ (g.track maxframe item).emitted = .mark)
          ∧ t.isInside = false)) := by
  unfold Ingress.track
  rw [if_neg hn]
  cases ht : g.tracker with
  | inside n l q a =>
    rw [ht] at hi
    cases hi
  | outside =>
    dsimp only
    unfold Ingress.trackOutside
    split
    case h_1 => exact ⟨.outside, _, by rw [← ht]; rfl, .inr ⟨.inr rfl, rfl⟩⟩
    case h_2 => exact ⟨_, g.counters, rfl, .inl ⟨rfl, rfl⟩⟩
    case h_8 => exact ⟨.discard, _, rfl, .inr ⟨.inl rfl, rfl⟩⟩
    all_goals exact ⟨.outside, _, by rw [← ht]; rfl, .inr ⟨.inl rfl, rfl⟩⟩
  | discard =>
    dsimp only
    unfold Ingress.trackDiscard
    split
    case h_1 => exact ⟨_, g.counters, rfl, .inl ⟨rfl, rfl⟩⟩
    all_goals exact ⟨.discard, _, by rw [← ht]; rfl, .inr ⟨.inl rfl, rfl⟩⟩

/-- Inside a frame it emits DATA and stays there, or emits the terminator that ends the frame (R16, R17). -/
theorem Ingress.track_inside (hi : g.tracker.isInside = true) (hn : item ≠ .owedAbort) :
    ∃ t ks, (g.track maxframe item).after = { g with tracker := t, counters := ks }
      ∧ (((∃ v, (g.track maxframe item).emitted = .data v) ∧ t.isInside = true)
        ∨ (((g.track maxframe item).emitted = .shut ∨ (g.track maxframe item).emitted = .abort)
          ∧ t.isInside = false)) := by
  unfold Ingress.track
  rw [if_neg hn]
  cases ht : g.tracker with
  | outside =>
    rw [ht] at hi
    cases hi
  | discard =>
    rw [ht] at hi
    cases hi
  | inside n l q a =>
    dsimp only
    unfold Ingress.trackInside
    split
    case h_1 v =>
      split
      · exact ⟨_, g.counters, rfl, .inl ⟨⟨v, rfl⟩, rfl⟩⟩
      · exact ⟨.discard, _, rfl, .inr ⟨.inr rfl, rfl⟩⟩
    case h_2 => exact ⟨.outside, _, rfl, .inr ⟨.inl rfl, rfl⟩⟩
    case h_3 => exact ⟨.outside, _, rfl, .inr ⟨.inr rfl, rfl⟩⟩
    all_goals exact ⟨.discard, _, rfl, .inr ⟨.inr rfl, rfl⟩⟩

end

/-! ### What the read side hands over (R10 to R13) -/

theorem readBetween_sublist (d : Bool) (n : Nat) (c : Character) (rest : List BufItem) :
    (readBetween d n c rest).2.Sublist (.char c :: rest) := by
  unfold readBetween
  split
  · exact .refl _
  · split
    · split
      · exact ((List.sublist_cons_self _ _).trans (List.sublist_cons_self _ _))
      all_goals exact List.sublist_cons_self _ _
    · exact List.sublist_cons_self _ _

/-- A read takes from the buffer and puts nothing there. -/
theorem Ingress.nextItem_sublist (g : Ingress) : g.nextItem.2.Sublist g.buffer := by
  unfold Ingress.nextItem
  split
  · exact .refl _
  · split
    · exact .refl _
    · split
      · exact .refl _
      · split
        · exact .refl _
        · split
          case h_1 rest hb => exact hb ▸ List.sublist_cons_self _ _
          case h_2 rest hb => exact hb ▸ List.sublist_cons_self _ _
          case h_3 hb => rw [hb]; split <;> exact .refl _
          case h_4 c rest hb =>
            rw [hb]
            split
            · exact List.sublist_cons_self _ _
            · exact readBetween_sublist _ _ c rest

theorem readBetween_ne_owedAbort (d : Bool) (n : Nat) (c : Character) (rest : List BufItem) :
    (readBetween d n c rest).1 ≠ .owedAbort := by
  unfold readBetween
  split
  · exact nofun
  · split
    · split <;> exact nofun
    · exact nofun

/-- The ABORT of R19 is handed over exactly while it is owed. -/
theorem Ingress.nextItem_owedAbort (g : Ingress) : g.nextItem.1 = .owedAbort ↔ g.abortDue = true := by
  constructor
  · intro h
    by_contra ha
    unfold Ingress.nextItem at h
    rw [if_neg ha] at h
    split at h
    · cases h
    · split at h
      · cases h
      · split at h
        · cases h
        · split at h
          · cases h
          · cases h
          · split at h <;> cases h
          · split at h
            · cases h
            · exact readBetween_ne_owedAbort _ _ _ _ h
  · intro h
    unfold Ingress.nextItem
    rw [if_pos h]

theorem Ingress.nextItem_abortDue (g : Ingress) (h : g.abortDue = true) : g.nextItem = (.owedAbort, g.buffer) := by
  unfold Ingress.nextItem
  rw [if_pos h]

theorem Ingress.nextItem_idle (g : Ingress) (h : g.abortDue = false) (hl : g.line.delivering = false) :
    g.nextItem = (.idle, g.buffer) := by
  unfold Ingress.nextItem
  simp [h, hl]

/-! ### The clean stream (R14) -/

/-- The ingress as the tracker reads: the item has left the read side. -/
def Ingress.handing (g : Ingress) : Ingress :=
  { g with
    buffer := g.nextItem.2
    slipPending := g.slipPending && decide (g.nextItem.1 ≠ .slip)
    readDue := false }

/-- A read is a read of the tracker, whose character and position the clean stream then has. -/
theorem Ingress.readOnce_eq (g : Ingress) (maxframe : Nat) :
    g.readOnce maxframe = { g.handing.track maxframe g.nextItem.1 with
      after := { (g.handing.track maxframe g.nextItem.1).after with
        clean := (g.handing.track maxframe g.nextItem.1).emitted
        cleanInside := (g.handing.track maxframe g.nextItem.1).inside } } := rfl

theorem Ingress.betweenFrames_iff (g : Ingress) :
    g.betweenFrames = true ↔ g.tracker.isInside = false ∧ g.abortDue = false := by
  simp [Ingress.betweenFrames]

/-- What the state of an ingress says of its line (R1, R3, R5, R19), the read side aside. -/
theorem Ingress.Wf.of_lines {g g' : Ingress} (h : g.Wf) (hl : g'.level ≤ 32) (hline : g'.line = g.line)
    (hw : g'.window = g.window) (ht : g'.traffic = g.traffic) (hv : g'.violationRun = g.violationRun)
    (hb : g.line.delivering = false → g'.buffer = [] ∧ g'.tracker = .outside)
    (ha : g'.abortDue = true → g'.tracker = .outside) : g'.Wf := by
  obtain ⟨-, hoff, hon, -⟩ := h
  refine ⟨hl, fun hd => ?_, fun hd => ?_, ha⟩
  · rw [hline] at hd
    rw [hw, ht]
    exact ⟨(hb hd).1, (hoff hd).2.1, (hoff hd).2.2.1, (hb hd).2⟩
  · rw [hline] at hd
    rw [hw, hv]
    exact hon hd

/-- Read after read, DATA and terminators stand inside a frame, and OPEN, FILL and MARK between frames (R14). -/
theorem Ingress.readOnce_wellFormed (g : Ingress) (maxframe : Nat) (hg : g.Wf) :
    (g.betweenFrames = true → (g.readOnce maxframe).emitted = .opn ∨ (g.readOnce maxframe).emitted = .fill
        ∨ (g.readOnce maxframe).emitted = .mark)
    ∧ (g.betweenFrames = false → (∃ v, (g.readOnce maxframe).emitted = .data v)
        ∨ (g.readOnce maxframe).emitted = .shut ∨ (g.readOnce maxframe).emitted = .abort)
    ∧ (g.readOnce maxframe).after.betweenFrames
        = !positionAfter (g.readOnce maxframe).emitted (!g.betweenFrames)
    ∧ (g.readOnce maxframe).after.Wf := by
  obtain ⟨hlevel, hoff, hon, habort⟩ := id hg
  have hlevel' : g.handing.level ≤ 32 := (g.nextItem_sublist.countP_le).trans hlevel
  rw [Ingress.readOnce_eq]
  cases ha : g.abortDue with
  | true =>
    have ht := habort ha
    have hb : g.betweenFrames = false := by simp [Ingress.betweenFrames, ha]
    simp only [g.nextItem_abortDue ha, Ingress.track_owedAbort, hb]
    refine ⟨nofun, fun _ => .inr (.inr trivial), ?_, ?_⟩
    · simp [Ingress.betweenFrames, Ingress.handing, ht, Tracker.isInside, positionAfter]
    · exact hg.of_lines hlevel' rfl rfl rfl rfl (fun hd => ⟨by
        show g.nextItem.2 = []
        rw [g.nextItem_abortDue ha]
        exact (hoff hd).1, ht⟩) nofun
  | false =>
    have hn : g.nextItem.1 ≠ .owedAbort := fun h => by simp [g.nextItem_owedAbort.mp h] at ha
    have hha : g.handing.abortDue = false := ha
    have idle (hd : g.line.delivering = false) :
        g.handing.buffer = [] ∧ (g.handing.track maxframe g.nextItem.1).after.tracker = .outside := by
      have hi := g.nextItem_idle ha hd
      refine ⟨by show g.nextItem.2 = []; rw [hi]; exact (hoff hd).1, ?_⟩
      rw [hi, g.handing.track_idle maxframe (hoff hd).2.2.2]
      exact (hoff hd).2.2.2
    cases hi : g.tracker.isInside with
    | false =>
      have hb : g.betweenFrames = true := g.betweenFrames_iff.mpr ⟨hi, ha⟩
      obtain ⟨t, ks, hafter, hem⟩ := g.handing.track_between maxframe g.nextItem.1 hi hn
      rw [hafter] at idle
      simp only [hafter, hb]
      refine ⟨fun _ => ?_, nofun, ?_,
        hg.of_lines hlevel' rfl rfl rfl rfl idle fun hx => by simp [hha] at hx⟩
      · rcases hem with ⟨h, -⟩ | ⟨h | h, -⟩ <;> simp [h]
      · rcases hem with ⟨h, ht⟩ | ⟨h | h, ht⟩ <;> simp [h, ht, Ingress.betweenFrames, hha, positionAfter]
    | true =>
      have hb : g.betweenFrames = false := by simp [Ingress.betweenFrames, hi]
      obtain ⟨t, ks, hafter, hem⟩ := g.handing.track_inside maxframe g.nextItem.1 hi hn
      rw [hafter] at idle
      simp only [hafter, hb]
      refine ⟨nofun, fun _ => ?_, ?_,
        hg.of_lines hlevel' rfl rfl rfl rfl idle fun hx => by simp [hha] at hx⟩
      · rcases hem with ⟨⟨v, h⟩, -⟩ | ⟨h | h, -⟩ <;> simp [h]
      · rcases hem with ⟨⟨v, h⟩, ht⟩ | ⟨h | h, ht⟩ <;> simp [h, ht, Ingress.betweenFrames, hha, positionAfter]

/-- Settles O22: what a read between frames, of an owed ABORT, and inside a frame gives, each by the tracker's own
cases. -/
theorem cleanStreamIsWellFormed : Obligations.CleanStreamIsWellFormed :=
  fun g maxframe hg => g.readOnce_wellFormed maxframe hg

/-! ### The other operations of an ingress keep it well formed, and its place in its frames -/

/-- From `g` to `h` an ingress stays well formed and in its place in its frames (R29), and its reads and MARK events are
as they were. -/
structure Ingress.SameFrames (g h : Ingress) : Prop where
  wf : g.Wf → h.Wf
  between : g.Wf → h.betweenFrames = g.betweenFrames
  readDue : h.readDue = g.readDue
  markDue : h.markDue = g.markDue

section
variable {g h k : Ingress}

theorem Ingress.SameFrames.refl (g : Ingress) : g.SameFrames g := ⟨id, fun _ => rfl, rfl, rfl⟩

theorem Ingress.SameFrames.trans (a : g.SameFrames h) (b : h.SameFrames k) : g.SameFrames k :=
  ⟨b.wf ∘ a.wf, fun hg => (b.between (a.wf hg)).trans (a.between hg), b.readDue.trans a.readDue,
    b.markDue.trans a.markDue⟩

/-- What is left when a line enters DARK or HUNT: a frame in progress gives way to the ABORT that ends it (R19). -/
theorem Ingress.lose_eq (g : Ingress) (line : LineState) :
    g.lose line = { g with
      line := line, searchRun := 0, violationRun := 0, window := none, quietWindows := 0, traffic := none
      buffer := [], priming := false, slipPending := false, tracker := .outside
      abortDue := g.abortDue || g.tracker.isInside
      counters := if g.tracker.isInside then (g.bump .framesCut).counters else g.counters } := by
  unfold Ingress.lose
  cases g.tracker.isInside <;> simp [Ingress.bump]

theorem Ingress.lose_wf (g : Ingress) {line : LineState} (hl : line.delivering = false) : (g.lose line).Wf := by
  rw [Ingress.lose_eq]
  refine ⟨by simp [Ingress.level], fun _ => ⟨rfl, rfl, rfl, rfl⟩, fun hd => ?_, fun _ => rfl⟩
  exact absurd hd (by simp [hl])

theorem Ingress.lose_between (g : Ingress) (line : LineState) : (g.lose line).betweenFrames = g.betweenFrames := by
  rw [Ingress.lose_eq]
  simp [Ingress.betweenFrames, Tracker.isInside, Bool.and_comm]

theorem Ingress.lose_same (g : Ingress) {line : LineState} (hl : line.delivering = false) :
    g.SameFrames (g.lose line) :=
  ⟨fun _ => g.lose_wf hl, fun _ => g.lose_between line, by rw [Ingress.lose_eq], by rw [Ingress.lose_eq]⟩

theorem Ingress.search_same (g : Ingress) (c : Character) (re : Bool) : g.SameFrames (g.search c re) := by
  unfold Ingress.search
  split
  · exact ⟨id, fun _ => rfl, rfl, rfl⟩
  · dsimp only
    generalize (if re = true then 1 else g.searchRun + 1) = run
    split
    · refine ⟨fun ⟨_, _, _, ha⟩ => ⟨by simp [Ingress.lock, Ingress.level], ?_, ?_, ha⟩, fun _ => rfl, rfl, rfl⟩
      · exact nofun
      · exact fun _ => ⟨rfl, Nat.zero_lt_succ 3⟩
    · exact ⟨id, fun _ => rfl, rfl, rfl⟩

theorem level_append (buffer : List BufItem) (b : BufItem) :
    (buffer ++ [b]).countP BufItem.isChar = buffer.countP BufItem.isChar + if b.isChar then 1 else 0 := by
  rw [List.countP_append, List.countP_singleton]

/-- A mark holds no buffer space (R13). -/
theorem Ingress.overflow_level (g : Ingress) (c : Character) : (g.overflow c).level = g.level := by
  unfold Ingress.overflow
  split
  · rfl
  · split
    · exact (level_append _ _).trans (by simp [BufItem.isChar, Ingress.level])
    · split
      · exact (level_append _ _).trans (by simp [BufItem.isChar, Ingress.level])
      · rfl

/-- An overflow adds a mark or owes a slip (R12, R13). -/
theorem Ingress.overflow_frame (g : Ingress) (c : Character) :
    g.overflow c = { g with buffer := (g.overflow c).buffer, slipPending := (g.overflow c).slipPending } := by
  unfold Ingress.overflow
  split
  · rfl
  · split
    · rfl
    · split <;> rfl

theorem Ingress.write_same (g : Ingress) (c : Character) (hd : g.line.delivering = true) :
    g.SameFrames (g.write c) := by
  unfold Ingress.write
  split
  · have hl := g.overflow_level c
    rw [g.overflow_frame c] at hl ⊢
    refine ⟨fun hg => hg.of_lines (hl.trans_le hg.1) rfl rfl rfl rfl (fun hx => ?_) hg.2.2.2, fun _ => rfl, rfl, rfl⟩
    exact absurd hd (by simp [hx])
  · rename_i hne
    refine ⟨fun hg => hg.of_lines ?_ rfl rfl rfl rfl (fun hx => ?_) hg.2.2.2, fun _ => rfl, rfl, rfl⟩
    · have h1 := hg.1
      have h2 : ({ g with buffer := g.buffer ++ [.char c], priming := g.priming && decide (g.level + 1 < 16) } :
          Ingress).level = g.level + 1 := level_append _ _
      omega
    · exact absurd hd (by simp [hx])

/-- A delivered character counts towards the VIOLATIONs in a row, in the window and in all, or ends their run (R3,
R5). -/
def Ingress.counted (g : Ingress) (c : Character) : Ingress :=
  if c = .violation then
    { g.bump .violations with window := g.window.map Window.violation, violationRun := g.violationRun + 1 }
  else { g with violationRun := 0 }

/-- The fourth VIOLATION in a row puts the line in HUNT, and any other character is written (R3, R10). -/
theorem Ingress.deliver_eq (g : Ingress) (c : Character) :
    g.deliver c = if c = .violation ∧ g.violationRun = 3 then (g.counted c).lose .hunt else (g.counted c).write c := by
  unfold Ingress.deliver Ingress.counted
  by_cases hc : c = .violation <;> simp [hc]

/-- What counting a character leaves of an ingress. -/
theorem Ingress.counted_frame (g : Ingress) (c : Character) :
    g.counted c = { g with
      counters := (g.counted c).counters, window := (g.counted c).window
      violationRun := (g.counted c).violationRun } := by
  unfold Ingress.counted
  split <;> rfl

theorem Ingress.deliver_same (g : Ingress) (c : Character) (hd : g.line.delivering = true) :
    g.SameFrames (g.deliver c) := by
  rw [Ingress.deliver_eq]
  have hf := g.counted_frame c
  have between : (g.counted c).betweenFrames = g.betweenFrames := by rw [hf]; rfl
  have readDue : (g.counted c).readDue = g.readDue := by rw [hf]
  have markDue : (g.counted c).markDue = g.markDue := by rw [hf]
  split
  · exact ⟨fun _ => Ingress.lose_wf _ rfl, fun _ => (Ingress.lose_between _ _).trans between,
      by rw [Ingress.lose_eq]; exact readDue, by rw [Ingress.lose_eq]; exact markDue⟩
  · rename_i hne
    refine .trans (h := g.counted c) ⟨fun ⟨hl, hoff, hon, ha⟩ => ?_, fun _ => between, readDue, markDue⟩
      (Ingress.write_same _ c (by rw [hf]; exact hd))
    obtain ⟨hw, hv⟩ := hon hd
    have hrun : (g.counted c).window.isSome ∧ (g.counted c).violationRun < 4 := by
      unfold Ingress.counted
      split
      · rename_i hc
        refine ⟨by simpa using hw, ?_⟩
        have : g.violationRun ≠ 3 := fun h => hne ⟨hc, h⟩
        show g.violationRun + 1 < 4
        omega
      · exact ⟨hw, Nat.zero_lt_succ 3⟩
    rw [hf] at hrun ⊢
    exact ⟨hl, fun hx => absurd hd (by simp [show g.line.delivering = false from hx]), fun _ => hrun, ha⟩

theorem Ingress.receiveCharacter_same (g : Ingress) (c : Character) (re : Bool) :
    g.SameFrames (g.receiveCharacter c re) := by
  unfold Ingress.receiveCharacter
  split
  case h_1 => exact .refl g
  case h_2 => exact g.search_same c re
  all_goals
    rename_i hl
    exact g.deliver_same c (by rw [hl]; rfl)

/-- A line that changes among the states in which it delivers, or among the others, keeps its frames. -/
theorem Ingress.SameFrames.of_line (hd : h.line.delivering = g.line.delivering)
    (he : h = { g with line := h.line, sd := h.sd, sdLoss := h.sdLoss, searchRun := h.searchRun, traffic := h.traffic
                       window := h.window, quietWindows := h.quietWindows, lastWindow := h.lastWindow })
    (ht : g.line.delivering = false → g.traffic = none → h.traffic = none)
    (hw : h.window.isSome = g.window.isSome) : g.SameFrames h := by
  rw [he]
  refine ⟨fun ⟨hl, hoff, hon, ha⟩ => ⟨hl, fun hx => ?_, fun hx => ?_, ha⟩, fun _ => rfl, rfl, rfl⟩
  · replace hx : g.line.delivering = false := hd ▸ hx
    obtain ⟨h1, h2, h3, h4⟩ := hoff hx
    exact ⟨h1, by rw [h2] at hw; simpa using hw, ht hx h3, h4⟩
  · replace hx : g.line.delivering = true := hd ▸ hx
    exact ⟨by rw [hw]; exact (hon hx).1, (hon hx).2⟩

theorem Ingress.sdAsserted_same (g : Ingress) : g.SameFrames g.sdAsserted := by
  refine .of_line ?_ rfl (fun _ => id) rfl
  unfold Ingress.sdAsserted
  dsimp only
  split
  · rename_i h
    rw [h]
    rfl
  · rfl

theorem Ingress.trafficExpired_same (g : Ingress) : g.SameFrames g.trafficExpired := by
  refine .of_line ?_ rfl (fun _ _ => rfl) rfl
  unfold Ingress.trafficExpired
  dsimp only
  split
  · rename_i h
    rw [h]
    rfl
  · rfl

theorem Ingress.goodFrame_same (g : Ingress) : g.SameFrames g.goodFrame := by
  unfold Ingress.goodFrame
  split
  · rename_i hd
    refine .of_line ?_ rfl (fun hx => absurd hd (by simp [hx])) rfl
    dsimp only
    split
    · rw [hd]
      rfl
    · rfl
  · exact .refl g

theorem Ingress.endWindow_same (g : Ingress) (n : Nat) (hw : g.window.isSome) : g.SameFrames (g.endWindow n) := by
  unfold Ingress.endWindow
  dsimp only
  split
  case h_1 hl =>
    split
    · exact .of_line rfl rfl (fun _ => id) (by simp [hw])
    · split
      · refine .of_line ?_ rfl (fun _ => id) (by simp [hw])
        rw [hl]
        dsimp only
        split <;> rfl
      · exact .of_line rfl rfl (fun _ => id) (by simp [hw])
  case h_4 => exact .refl g
  case h_5 => exact .refl g
  all_goals
    rename_i hl
    split
    · exact .of_line (by rw [hl]; rfl) rfl (fun _ => id) (by simp [hw])
    · exact .of_line rfl rfl (fun _ => id) (by simp [hw])

/-- The pattern check reaches counters and the expected sequence (R22). -/
theorem Ingress.patternCheck_frame (g : Ingress) (m n : Nat) (q : Half) (a : Bool) :
    g.patternCheck m n q a = { g with
      counters := (g.patternCheck m n q a).counters, expected := (g.patternCheck m n q a).expected } := by
  unfold Ingress.patternCheck
  split
  · rfl
  · split
    · dsimp only
      split
      · rfl
      · split <;> rfl
    · rfl

theorem Ingress.patternCheck_same (g : Ingress) (m n : Nat) (q : Half) (a : Bool) :
    g.SameFrames (g.patternCheck m n q a) := by
  rw [Ingress.patternCheck_frame]
  exact ⟨id, fun _ => rfl, rfl, rfl⟩

end

end Sys2Proof.Machine
end

section
/-! The ingresses and the streams of the egresses together: puts, reads and MARK events (R14, R49, R81). -/

namespace Sys2Proof.Machine

/-- The streams are well formed (R30), and no egress closes a source in `opened`. -/
structure State.StreamsOpen (opened : Source → Prop) (s : State) : Prop where
  ingresses : s.IngressesWf
  pattern : s.pattern.Wf
  streams : ∀ e : Port, s.StreamOk opened e

theorem State.streamsWf_iff (s : State) : s.StreamsWf ↔ s.StreamsOpen noSource := by
  constructor
  · rintro ⟨hsel, hin, hpat, he⟩
    exact ⟨hin, hpat, fun e => ⟨hsel e, (he e).1, (he e).2, fun _ h => h.elim⟩⟩
  · rintro ⟨hin, hpat, he⟩
    exact ⟨fun e => (he e).wf, hin, hpat, fun e => ⟨(he e).inStep, (he e).line⟩⟩

theorem State.StreamsOpen.streamsWf {opened : Source → Prop} {s : State} (h : s.StreamsOpen opened) : s.StreamsWf :=
  s.streamsWf_iff.mpr ⟨h.ingresses, h.pattern, fun e => ⟨(h.streams e).wf, (h.streams e).inStep, (h.streams e).line,
    fun _ hs => hs.elim⟩⟩

theorem State.StreamsWf.opened {s : State} (h : s.StreamsWf) (src : Source) (ho : s.sourceOpen src = true) :
    s.StreamsOpen (· = src) := by
  obtain ⟨hin, hpat, he⟩ := s.streamsWf_iff.mp h
  refine ⟨hin, hpat, fun e => ⟨(he e).wf, (he e).inStep, (he e).line, ?_⟩⟩
  rintro _ rfl
  exact (s.sourceOpen_iff _).mp ho e

/-- From `s` to `t` streams stay well formed, and MARK events wait on a read if they did (R30, R81). -/
def State.KeepsStreams (s t : State) : Prop := (s.StreamsWf → t.StreamsWf) ∧ (s.MarksWait → t.MarksWait)

section
variable {s t u : State}

theorem State.KeepsStreams.refl (s : State) : s.KeepsStreams s := ⟨id, id⟩

theorem State.KeepsStreams.trans (h : s.KeepsStreams t) (k : t.KeepsStreams u) : s.KeepsStreams u :=
  ⟨k.1 ∘ h.1, k.2 ∘ h.2⟩

theorem State.StreamReach.streamsOpen {opened : Source → Prop} (h : s.StreamReach t) (ho : ¬ opened .inject)
    (k : s.StreamsOpen opened) : t.StreamsOpen opened :=
  ⟨by unfold State.IngressesWf; rw [h.ports]; exact k.ingresses, h.pattern ▸ k.pattern,
    fun e => h.streams opened e ho (k.streams e)⟩

theorem State.StreamReach.keepsStreams (h : s.StreamReach t) : s.KeepsStreams t := by
  refine ⟨fun hs => ?_, fun hm => ?_⟩
  · rw [State.streamsWf_iff] at hs ⊢
    exact h.streamsOpen id hs
  · unfold State.MarksWait
    rw [h.ports]
    exact hm

theorem State.SameMap.keepsStreams (h : s.SameMap t) : s.KeepsStreams t := h.stream.keepsStreams

theorem State.arbitrate_keepsStreams (h : s.KeepsStreams t) : s.KeepsStreams t.arbitrate :=
  h.trans t.arbitrate_stream.keepsStreams

/-! ### An ingress in a new state -/

theorem setPort_betweenFrames (s : State) (p : Port) (g : Ingress) (e : Port) (src : Source)
    (hg : src = .ingress p → g.betweenFrames = s.ports[p].betweenFrames) :
    (s.setPort p g).betweenFrames e src = s.betweenFrames e src := by
  cases src with
  | ingress q =>
    by_cases hq : q = p
    · subst hq
      show (s.setPort q g).ports[q].betweenFrames = _
      rw [setPort_same]
      exact hg rfl
    · show (s.setPort p g).ports[q].betweenFrames = _
      rw [setPort_other s p g q hq]
      rfl
  | fill => rfl
  | pattern => rfl
  | inject => rfl
  | hold => rfl

theorem State.IngressesWf.setPort (h : s.IngressesWf) {p : Port} {g : Ingress} (hg : g.Wf) :
    (s.setPort p g).IngressesWf := by
  intro q
  by_cases hq : q = p
  · subst hq
    rwa [setPort_same]
  · rw [setPort_other s p g q hq]
    exact h q

theorem State.setPort_streamsOpen {opened : Source → Prop} {p : Port} {g : Ingress} (hg : s.ports[p].SameFrames g)
    (h : s.StreamsOpen opened) : (s.setPort p g).StreamsOpen opened := by
  have hw := h.ingresses p
  refine ⟨h.ingresses.setPort (hg.wf hw), h.pattern, fun e => ?_⟩
  exact (h.streams e).congr fun src => setPort_betweenFrames s p g e src fun _ => hg.between hw

theorem State.setPort_keepsStreams {p : Port} {g : Ingress} (hg : s.ports[p].SameFrames g) :
    s.KeepsStreams (s.setPort p g) := by
  refine ⟨fun hs => ?_, fun hm q hq => ?_⟩
  · rw [State.streamsWf_iff] at hs ⊢
    exact State.setPort_streamsOpen hg hs
  · have reads (q : Port) : (s.setPort p g).ports[q].readDue = s.ports[q].readDue
        ∧ (s.setPort p g).ports[q].markDue = s.ports[q].markDue := by
      by_cases hqp : q = p
      · subst hqp
        rw [setPort_same]
        exact ⟨hg.readDue, hg.markDue⟩
      · rw [setPort_other s p g q hqp]
        exact ⟨rfl, rfl⟩
    obtain ⟨r, hr⟩ := hm q ((reads q).2.symm.trans hq)
    exact ⟨r, (reads r).1.trans hr⟩

theorem State.putIngress_keepsStreams {p : Port} {g : Ingress} (hg : s.ports[p].SameFrames g) :
    s.KeepsStreams (s.putIngress p g) :=
  (State.setPort_keepsStreams hg).trans (State.announceLine_stream _ p _).keepsStreams

/-! ### A character offered -/

@[simp] theorem offer_egress (s : State) (src : Source) (c : Character) (e : Port) :
    (s.offer src c).egresses[e] = s.egresses[e].receive src c := by
  simp [State.offer]

@[simp] theorem offer_ports (s : State) (src : Source) (c : Character) : (s.offer src c).ports = s.ports := rfl

theorem offer_betweenFrames (s : State) (src : Source) (c : Character) (e : Port) :
    (s.offer src c).betweenFrames e = s.betweenFrames e := by
  funext x
  cases x <;> rfl

/-- From `s` to `t` a source with a stream of its own goes on by one character, which no egress keeps from going on;
once
it is offered, every stream goes on well formed (R30, R49). -/
theorem State.offer_streams {opened : Source → Prop} {src : Source} {c : Character} (hj : src ≠ .inject)
    (he : t.egresses = s.egresses) (ho : ∀ e : Port, Offers src c (s.betweenFrames e) (t.betweenFrames e))
    (hs : ∀ e : Port, s.StreamOk opened e) (hopen : opened src) (e : Port) :
    (t.offer src c).StreamOk noSource e := by
  unfold State.StreamOk
  rw [offer_egress, offer_betweenFrames, he]
  exact Egress.receive_ok (hs e) (ho e) hj ((hs e).opened src hopen)

/-- The character that a read of ingress `p` gives is one that its stream goes on with (R14). -/
theorem State.read_offers (s : State) (p : Port) (maxframe : Nat) (hw : s.ports[p].Wf) (e : Port) :
    Offers (.ingress p) (s.ports[p].readOnce maxframe).emitted (s.betweenFrames e)
      ((s.setPort p (s.ports[p].readOnce maxframe).after).betweenFrames e) := by
  obtain ⟨hout, hin, hafter, -⟩ := s.ports[p].readOnce_wellFormed maxframe hw
  refine ⟨hout, hin, ?_, fun x hx => setPort_betweenFrames s p _ e x fun h => absurd h hx⟩
  show (s.setPort p _).ports[p].betweenFrames = _
  rw [setPort_same]
  exact hafter

/-- The read of an ingress that no egress closes keeps the streams well formed (R14, R49). -/
theorem State.readTracker_streamsWf (p : Port) (h : s.StreamsOpen (· = .ingress p)) :
    (s.readTracker p).StreamsWf := by
  have hw := h.ingresses p
  have hwell := s.ports[p].readOnce_wellFormed s.maxframe hw
  have hu : ((s.setPort p (s.ports[p].readOnce s.maxframe).after).offer (.ingress p)
      (s.ports[p].readOnce s.maxframe).emitted).StreamsWf := by
    rw [State.streamsWf_iff]
    exact ⟨h.ingresses.setPort hwell.2.2.2, h.pattern, State.offer_streams (s := s) (by simp) rfl
      (s.read_offers p s.maxframe hw) h.streams rfl⟩
  have hp : ((s.setPort p (s.ports[p].readOnce s.maxframe).after).offer (.ingress p)
      (s.ports[p].readOnce s.maxframe).emitted).ports[p] = (s.ports[p].readOnce s.maxframe).after :=
    setPort_same s p _
  unfold State.readTracker
  dsimp only
  split
  · exact hu
  · refine (State.putIngress_keepsStreams ?_).1 hu
    rw [hp]
    exact (Ingress.patternCheck_same _ _ _ _ _).trans (Ingress.goodFrame_same _)
  · refine State.StreamsOpen.streamsWf (opened := noSource) ⟨?_, ((State.streamsWf_iff _).mp hu).pattern, fun e => ?_⟩
    · exact ((State.streamsWf_iff _).mp hu).ingresses.setPort hwell.2.2.2
    · refine (((State.streamsWf_iff _).mp hu).streams e).congr fun src => setPort_betweenFrames _ p _ e src fun _ => ?_
      rw [hp]
      rfl

/-! ### MARK events (R81) -/

theorem State.fireWaiting_ports (s : State) (g : Trigger) : (s.fireWaiting g).ports = s.ports :=
  (s.fireWaiting_stream g).ports

theorem State.takeMark_port (s : State) (p q : Port) : (s.takeMark p).ports[q]
    = if q = p then { s.ports[q] with markDue := false } else s.ports[q] := by
  unfold State.takeMark
  rw [State.fireWaiting_ports]
  split
  · subst q
    exact setPort_same s p _
  · rename_i h
    exact setPort_other s p _ q h

/-- The MARK events that wait are taken, and nothing else of an ingress changes (R81). -/
theorem State.takeMarks_port (s : State) (q : Port) : s.takeMarks.ports[q] = { s.ports[q] with markDue := false } := by
  have aux : ∀ (l : List Port) (t : State), (l.foldl (fun t p => t.takeMark p) t).ports[q]
      = if q ∈ l then { t.ports[q] with markDue := false } else t.ports[q] := by
    intro l
    induction l with
    | nil => intro t; simp
    | cons p l ih =>
      intro t
      rw [List.foldl_cons, ih, State.takeMark_port]
      by_cases hp : q = p <;> by_cases hl : q ∈ l <;> simp [hp, hl]
  unfold State.takeMarks
  obtain ⟨l, draws, hl, heq⟩ :=
    s.inSomeOrder_order (allPorts.filter fun p => s.ports[p].markDue) fun p t => t.takeMark p
  rw [heq, aux]
  have hm : q ∈ l ↔ s.ports[q].markDue = true := by
    rw [hl.mem_iff]
    simp [allPorts]
  split
  · rfl
  · rename_i h
    have : s.ports[q].markDue = false := by simpa using mt hm.mpr h
    rw [← this]
    rfl

theorem State.takeMarks_streamsOpen {opened : Source → Prop} (ho : ¬ opened .inject) (h : s.StreamsOpen opened) :
    s.takeMarks.StreamsOpen opened := by
  refine State.inSomeOrder_keeps (State.StreamsOpen opened) s _ _
    (fun t n ht => (t.setDraws_sameMap n).stream.streamsOpen ho ht) (fun p _ t ht => ?_) h
  refine (State.fireWaiting_stream _ _).streamsOpen ho ?_
  have hw := ht.ingresses p
  exact ⟨ht.ingresses.setPort hw, ht.pattern, fun e =>
    (ht.streams e).congr fun src => setPort_betweenFrames t p _ e src fun _ => rfl⟩

/-- TRACKER_READ keeps the streams well formed, for the MARK events that it takes close no ingress (R38, R81). -/
theorem State.read_streamsWf (p : Port) (h : s.StreamsWf) (ho : s.sourceOpen (.ingress p) = true) :
    ((s.beforeRead p).readTracker p).afterRead.StreamsWf := by
  have hb : (s.beforeRead p).StreamsOpen (· = .ingress p) := by
    unfold State.beforeRead
    split
    · exact h.opened _ ho
    · exact State.takeMarks_streamsOpen (by simp) (h.opened _ ho)
  have hr := State.readTracker_streamsWf p hb
  unfold State.afterRead
  split
  · exact (State.takeMarks_streamsOpen (opened := noSource) id ((State.streamsWf_iff _).mp hr)).streamsWf
  · exact hr

/-- After the last read of a character time no MARK event waits (R81). -/
theorem State.afterRead_marksWait (s : State) : s.afterRead.MarksWait := by
  intro p hp
  unfold State.afterRead at hp ⊢
  split at hp
  · rw [State.takeMarks_port] at hp
    cases hp
  · rename_i h
    rw [if_neg h]
    simpa [State.readsOver, allPorts] using h

end

end Sys2Proof.Machine
end

section
/-! One character time of the part's own clock (R14, R30, R114, R134; log entry 5). -/

namespace Sys2Proof.Machine

/-! ### Nothing is due -/

theorem dueOf_eq_nil (xs : List (Bool × Instr)) : dueOf xs = [] ↔ ∀ x ∈ xs, x.1 = false := by
  simp [dueOf]

section
variable {s t : State}

theorem State.joinsDue_eq_nil (s : State) : s.joinsDue = [] ↔ ∀ e : Port, s.joinReady e = false := by
  simp [State.joinsDue, dueOf_eq_nil, allPorts]

/-- With nothing due no join is, and no egress holds a character back for an event of its own. -/
theorem State.nothing_due (hp : s.phase = .run) (h : s.dueCommands = []) :
    (∀ e : Port, s.joinReady e = false) ∧ ∀ e : Port, s.egressDue e = [] := by
  unfold State.dueCommands at h
  simp only [hp] at h
  split at h
  · rename_i hj
    refine ⟨s.joinsDue_eq_nil.mp (by simpa using hj), fun e => ?_⟩
    simp only [List.append_eq_nil_iff, List.flatMap_eq_nil_iff] at h
    exact h.1.1.2 e (by simp [allPorts])
  · rename_i hj
    exact absurd h (by simpa using hj)

/-- A character held back of another source than INJECT waits for an event that is due (R37, R39). -/
theorem Egress.Wf.held_due {g : Egress} (h : g.Wf) (hc : g.current ≠ .inject) (hterm : g.terminatorDue = false)
    (hdead : g.deadlineDue = false) : g.held = none := by
  by_contra hn
  obtain ⟨c, hh⟩ := Option.ne_none_iff_exists'.mp hn
  cases hs : g.state with
  | off => simp [Egress.Wf, hs, hh] at h
  | joining => simp [Egress.Wf, hs, hh] at h
  | steady => simp [Egress.Wf, hs, hh] at h
  | draining =>
    simp only [Egress.Wf, hs] at h
    obtain ⟨-, hch, -, hk⟩ := h
    obtain ⟨ch, hch⟩ := Option.isSome_iff_exists.mp hch
    rcases (hk c hh).2 hc with ht | hd
    · simp [Egress.terminatorDue, hs, hh, ht] at hterm
    · have : ch.deadline = some 0 := by simpa [hch] using hd
      simp [Egress.deadlineDue, hs, hh, hch, this] at hdead

/-- So the character time of the generator is open for its next character (log entries 24 and 33). -/
theorem State.pattern_open (hw : s.SelectorsWf) (hp : s.phase = .run) (h : s.dueCommands = []) :
    s.sourceOpen .pattern = true := by
  obtain ⟨hj, he⟩ := State.nothing_due hp h
  rw [State.sourceOpen_iff]
  rintro e (⟨hcur, hheld⟩ | ⟨hs, hb, ch, hc, ht⟩)
  · have hd := (dueOf_eq_nil _).mp (he e)
    simp only [List.mem_cons, forall_eq_or_imp, hcur, ne_eq, reduceCtorEq, not_false_eq_true, decide_true,
      Bool.and_true] at hd
    rw [(hw e).held_due (by rw [hcur]; nofun) hd.1 hd.2.1] at hheld
    cases hheld
  · have hn := hj e
    unfold State.joinReady at hn
    rw [hs, hc] at hn
    simp [ht, hb] at hn

/-! ### The clocks -/

@[simp] theorem clocksNewTime_port (s : State) (p : Port) : s.clocksNewTime.ports[p] = s.ports[p].newTime := by
  simp [State.clocksNewTime]

@[simp] theorem clocksNewTime_egress (s : State) (e : Port) :
    s.clocksNewTime.egresses[e] = s.egresses[e].newTime := by
  simp [State.clocksNewTime]

theorem Ingress.newTime_wf {g : Ingress} (h : g.Wf) : g.newTime.Wf := by
  obtain ⟨hl, hoff, hon, ha⟩ := h
  refine ⟨hl, fun hd => ?_, fun hd => ?_, ha⟩
  · obtain ⟨h1, h2, h3, h4⟩ := hoff hd
    exact ⟨h1, by simp [Ingress.newTime, h2], by simp [Ingress.newTime, h3, tickTimer], h4⟩
  · exact ⟨by simpa [Ingress.newTime] using (hon hd).1, (hon hd).2⟩

theorem clocksNewTime_betweenFrames (s : State) (e : Port) (src : Source) :
    s.clocksNewTime.betweenFrames e src = s.betweenFrames e src := by
  cases src with
  | ingress p =>
    show s.clocksNewTime.ports[p].betweenFrames = _
    rw [clocksNewTime_port]
    rfl
  | fill => rfl
  | pattern => rfl
  | inject => rfl
  | hold => rfl

/-- An egress that FILL, or nothing, gives its next character stays as it is (R38, R111, R120). -/
theorem Egress.newTime_ok {g : Egress} {b : Source → Bool} {opened : Source → Prop} (hfill : b .fill = true)
    (h : g.Ok b opened) : g.newTime.Ok b opened := by
  unfold Egress.newTime
  split
  case h_1 hs =>
    obtain ⟨h1, h2, h3, h4, -⟩ := (Egress.ok_off hs).mp h
    exact (Egress.ok_off (by exact hs)).mpr ⟨h1, h2, h3, h4, h1⟩
  case h_2 hs =>
    obtain ⟨h1, h2, h3, -⟩ := (Egress.ok_joining hs).mp h
    exact (Egress.ok_joining (by exact hs)).mpr ⟨h1, h2, h3, h1⟩
  case h_3 hs =>
    split
    · rename_i hc
      obtain ⟨h1, h2, h3, h4, -⟩ := (Egress.ok_steady hs).mp h
      refine (Egress.ok_steady (by exact hs)).mpr ⟨h1, h2, h3, h4, ?_⟩
      rw [hc, hfill] at h4
      exact h4
    · exact h
  case h_4 => exact h

theorem State.clocksNewTime_streamsOpen {opened : Source → Prop} (h : s.StreamsOpen opened) :
    s.clocksNewTime.StreamsOpen opened := by
  refine ⟨fun p => ?_, h.pattern, fun e => ?_⟩
  · rw [clocksNewTime_port]
    exact Ingress.newTime_wf (h.ingresses p)
  · unfold State.StreamOk
    rw [clocksNewTime_egress]
    exact Egress.newTime_ok rfl ((h.streams e).congr (clocksNewTime_betweenFrames s e))

/-! ### The generator (R114, R115) -/

/-- Where the generator offers a character, its stream goes on with it; else it stays between frames. -/
theorem Pattern.newTime_cases (g : Pattern) :
    (∃ c, g.newTime.2 = some c
      ∧ (g.betweenFrames = true → c = .opn ∨ c = .fill ∨ c = .mark)
      ∧ (g.betweenFrames = false → (∃ v, c = .data v) ∨ c = .shut ∨ c = .abort)
      ∧ g.newTime.1.betweenFrames = !positionAfter c (!g.betweenFrames))
    ∨ (g.newTime.2 = none ∧ g.newTime.1.betweenFrames = g.betweenFrames) := by
  unfold Pattern.newTime Pattern.betweenFrames
  cases hph : g.phase with
  | idle =>
    dsimp only
    split
    · exact .inr ⟨rfl, by simp⟩
    · exact .inl ⟨.fill, rfl, by simp, by simp, by simp [hph, positionAfter]⟩
  | gap seq len gap pos =>
    dsimp only
    split
    · exact .inl ⟨.fill, rfl, by simp, by simp, by simp [positionAfter]⟩
    · exact .inr ⟨rfl, by simp⟩
  | frame seq len gap pos =>
    left
    dsimp only
    split
    · exact ⟨_, rfl, by simp; omega, by simp, by simp [positionAfter]; omega⟩
    · split
      · exact ⟨.shut, rfl, by simp; omega, by simp, by simp [positionAfter]; omega⟩
      · exact ⟨.fill, rfl, by simp, by simp; omega, by simp [positionAfter]; omega⟩

theorem Pattern.newTime_wf {g : Pattern} (h : g.Wf) : g.newTime.1.Wf := by
  unfold Pattern.Wf Pattern.betweenFrames at *
  unfold Pattern.newTime
  cases hph : g.phase with
  | idle => dsimp only; split <;> simp [hph]
  | gap seq len gap pos => dsimp only; split <;> simp
  | frame seq len gap pos =>
    rw [hph] at h
    dsimp only at h ⊢
    split
    · intro hs
      have := h hs
      simp at this ⊢
      omega
    · split
      · intro hs
        simp
        omega
      · simp

theorem setPattern_betweenFrames (s : State) (g : Pattern) (e : Port) (src : Source) (h : src ≠ .pattern) :
    (s.setPattern g).betweenFrames e src = s.betweenFrames e src := by
  cases src with
  | pattern => exact absurd rfl h
  | _ => rfl

theorem State.patternNewTime_streamsOpen (h : s.StreamsOpen (· = .pattern)) :
    s.patternNewTime.StreamsOpen noSource := by
  unfold State.patternNewTime
  dsimp only
  have hwf := Pattern.newTime_wf h.pattern
  rcases s.pattern.newTime_cases with ⟨c, hc, hout, hin, hafter⟩ | ⟨hn, hb⟩
  · rw [hc]
    exact ⟨h.ingresses, hwf, State.offer_streams (s := s) (by simp) rfl
      (fun e => ⟨hout, hin, hafter, fun x hx => setPattern_betweenFrames s _ e x hx⟩) h.streams rfl⟩
  · rw [hn]
    refine ⟨h.ingresses, hwf, fun e => ?_⟩
    refine (h.streams e).of_current ?_
    by_cases hp : s.egresses[e].current = .pattern
    · show (s.setPattern s.pattern.newTime.1).betweenFrames e s.egresses[e].current = _
      rw [hp]
      exact hb
    · exact setPattern_betweenFrames s _ e _ hp

/-! ### The INJECT views (R134) -/

theorem setPool_betweenFrames (s : State) (p : Pool) (e : Port) (src : Source)
    (h : p.views[e].sending.isNone = s.pool.views[e].sending.isNone) :
    (s.setPool p).betweenFrames e src = s.betweenFrames e src := by
  cases src with
  | inject => exact h
  | _ => rfl

theorem Egress.receive_entry (g : Egress) (src : Source) (c : Character) : (g.receive src c).entry = g.entry := by
  unfold Egress.receive
  split
  · split
    · rfl
    · exact g.drainCharacter_entry c
    · rfl
    · rfl
  · rfl

/-- FILL on a view without a frame (R134). -/
theorem Egress.receive_inject_fill {g : Egress} {b : Source → Bool} (h : g.Ok b noSource) (hb : b .inject = true) :
    (g.receive .inject .fill).Ok b noSource := by
  unfold Egress.receive
  split
  · rename_i hc
    split
    case h_1 hs =>
      obtain ⟨h1, h2, h3, h4, -⟩ := (Egress.ok_steady hs).mp h
      refine (Egress.ok_steady (by exact hs)).mpr ⟨h1, h2, h3, h4, ?_⟩
      rw [hc, hb] at h4
      exact h4
    case h_2 hs =>
      obtain ⟨-, -, -, -, hi, -⟩ := (Egress.ok_draining hs).mp h
      simp only [Egress.InStep, hs, hc, hb] at hi
      split at hi <;> simp at hi
    case h_3 => exact h
    case h_4 => exact h
  · exact h

/-- The next character of the frame SENDING: the view goes on within its frame (R134), and the SHUT is held back in a
drain (R37). -/
theorem Egress.receive_inject_frame {g : Egress} {b : Source → Bool} {c : Character} (h : g.Ok b noSource)
    (hb : b .inject = false) (hc : (∃ v, c = .data v) ∨ (c = .shut ∧ g.state = .draining)) :
    (g.receive .inject c).Ok b noSource := by
  unfold Egress.receive
  split
  · rename_i hcur
    split
    case h_1 hs =>
      obtain ⟨h1, h2, h3, h4, -⟩ := (Egress.ok_steady hs).mp h
      rcases hc with ⟨v, rfl⟩ | ⟨-, hd⟩
      · refine (Egress.ok_steady (by exact hs)).mpr ⟨h1, h2, h3, h4, ?_⟩
        rw [hcur, hb] at h4
        exact h4
      · rw [hs] at hd
        cases hd
    case h_2 hs =>
      obtain ⟨hi, hch, hcu, -, -, hl, -⟩ := (Egress.ok_draining hs).mp h
      obtain ⟨ch, hch⟩ := Option.isSome_iff_exists.mp hch
      cases hh : g.held with
      | some d =>
        unfold Egress.drainCharacter
        simp only [hch, hh, Option.isSome_some, if_true]
        exact h
      | none =>
        refine Egress.drainCharacter_ok hs hi hch hcu hl hh ?_ id ?_
        · rcases hc with hd | ⟨rfl, -⟩
          · exact .inl hd
          · exact .inr (.inl rfl)
        · simp [hcur, hb]
    case h_3 => exact h
    case h_4 => exact h
  · exact h

theorem State.viewNewTime_onlyAt (s : State) (e : Port) : State.OnlyAt e s (s.viewNewTime e) := by
  have pool (t : State) (v : View) : State.OnlyAt e t (t.setPool (t.pool.setView e v)) :=
    t.setPool_onlyAt e _ fun j hj => setView_other _ e j v hj
  unfold State.viewNewTime
  dsimp only
  split
  · split
    · exact pool s _
    · exact (pool s _).trans (State.setEgress_onlyAt _ e _ (Egress.receive_entry _ _ _))
  · split
    · split
      · exact s.setEgress_onlyAt e _ (Egress.receive_entry _ _ _)
      · exact (pool s _).trans (State.setEgress_onlyAt _ e _ (Egress.receive_entry _ _ _))
    · split
      · exact (pool s _).trans (State.setEgress_onlyAt _ e _ (Egress.receive_entry _ _ _))
      · exact pool s _

theorem State.viewNewTime_streamOk (e : Port) (h : s.StreamOk noSource e) :
    (s.viewNewTime e).StreamOk noSource e := by
  have view (v : View) (hv : v.sending.isNone = s.pool.views[e].sending.isNone) (src : Source) :
      (s.setPool (s.pool.setView e v)).betweenFrames e src = s.betweenFrames e src :=
    setPool_betweenFrames s _ e src (by rw [setView_same]; exact hv)
  unfold State.viewNewTime
  dsimp only
  split
  · rename_i hn
    have hb : s.betweenFrames e .inject = true := congrArg Option.isNone hn
    split
    · exact h.congr (view _ rfl)
    · exact State.setEgress_streamOk ((Egress.receive_inject_fill h hb).congr (view _ rfl))
  · rename_i f hf
    have hb : s.betweenFrames e .inject = false := congrArg Option.isNone hf
    split
    · rename_i b _
      have hr := Egress.receive_inject_frame h hb (.inl ⟨b, rfl⟩)
      split
      · exact State.setEgress_streamOk hr
      · exact State.setEgress_streamOk (hr.congr (view _ (by rw [hf]; rfl)))
    · have hv := view { s.pool.views[e] with sending := some { f with shutDue := true } } (by rw [hf]; rfl)
      split
      · rename_i hd
        exact State.setEgress_streamOk ((Egress.receive_inject_frame h hb (.inr ⟨rfl, hd⟩)).congr hv)
      · exact h.congr hv

theorem State.viewNewTime_streamsOpen (e : Port) (h : s.StreamsOpen noSource) :
    (s.viewNewTime e).StreamsOpen noSource := by
  have hat := s.viewNewTime_onlyAt e
  refine ⟨by unfold State.IngressesWf; rw [hat.ports]; exact h.ingresses, hat.pattern ▸ h.pattern, fun j => ?_⟩
  by_cases hj : j = e
  · subst hj
    exact State.viewNewTime_streamOk j (h.streams j)
  · exact (hat.keepsStream hj).streamOk (h.streams j)

theorem State.foldl_viewNewTime_ports (es : List Port) (s : State) :
    (es.foldl State.viewNewTime s).ports = s.ports := by
  induction es generalizing s with
  | nil => rfl
  | cons e es ih => exact (ih _).trans (s.viewNewTime_onlyAt e).ports

theorem State.foldl_viewNewTime_streamsOpen (es : List Port) (h : s.StreamsOpen noSource) :
    (es.foldl State.viewNewTime s).StreamsOpen noSource := by
  induction es generalizing s with
  | nil => exact h
  | cons e es ih => exact ih (State.viewNewTime_streamsOpen e h)

theorem State.patternNewTime_ports (s : State) : s.patternNewTime.ports = s.ports := by
  unfold State.patternNewTime
  dsimp only
  split <;> rfl

/-- In a character time in which nothing is due every stream goes on well formed, and each ingress owes a read (R10,
R30). -/
theorem State.newTime_keepsStreams (h : s.dueCommands = []) : s.KeepsStreams s.newTime := by
  unfold State.newTime
  split
  case h_1 hp =>
    refine ⟨fun hs => ?_, fun _ q _ => ⟨q, ?_⟩⟩
    · exact (State.foldl_viewNewTime_streamsOpen _ (State.patternNewTime_streamsOpen
        (State.clocksNewTime_streamsOpen (hs.opened _ (State.pattern_open hs.1 hp h))))).streamsWf
    · rw [State.foldl_viewNewTime_ports, State.patternNewTime_ports, clocksNewTime_port]
      rfl
  case h_2 => exact ⟨id, id⟩
  case h_3 => exact .refl s

end

end Sys2Proof.Machine
end

section
/-! Every command, and so every step, keeps the streams of the egresses well formed and MARK events waiting on reads
(R30, R81). -/

namespace Sys2Proof.Machine

section
variable {s t : State}

/-- What every command and every character time with nothing due keeps, every step keeps: the queue of commands and the
count of draws being no part of it. -/
theorem keptByStep_of_exec (inv : State → Prop)
    (hpending : ∀ (s : State) (ps : List Instr), inv s → inv { s with pending := ps })
    (hdraws : ∀ (s : State) (n : Nat), inv s → inv (s.setDraws n))
    (hexec : ∀ (c : Instr) (s t : State), inv s → exec c s = .next t → inv t)
    (htime : ∀ s : State, inv s → s.dueCommands = [] → inv s.newTime) : KeptByStep inv := by
  intro s t hs h
  unfold step at h
  split at h
  · exact hexec _ _ t (hpending s _ hs) h
  · split at h
    · exact hexec _ _ t (hdraws s _ hs) h
    · rename_i hn
      cases h
      refine htime s hs ?_
      unfold State.nextDue at hn
      split at hn
      · assumption
      · cases hn
      · cases hn

/-! ### The frame of one event -/

theorem State.event_keepsStreams (can : Bool) (effect : State → State)
    (h : s.phase = .run → can = true → s.KeepsStreams (effect s)) : s.KeepsStreams (s.event can effect) := by
  unfold State.event
  split
  · rename_i hc
    simp only [Bool.and_eq_true, decide_eq_true_eq] at hc
    exact State.arbitrate_keepsStreams (h hc.1 hc.2)
  · exact .refl s

theorem State.execute_keepsStreams (accepts : Byte → Bool) (body : Message → State → Answer × State)
    (h : ∀ (m : Message) (t : State), t.KeepsStreams (body m t).2) : s.KeepsStreams (s.execute accepts body) := by
  unfold State.execute
  split
  · exact .refl s
  · exact State.event_keepsStreams _ _ fun _ _ =>
      ((s.setLink_stream _).keepsStreams.trans (h _ _)).trans (State.setLink_stream _ _).keepsStreams

/-! ### Requests -/

theorem setFramingRequest_keepsStreams (m : Message) (s : State) : s.KeepsStreams (setFramingRequest m s).2 := by
  unfold setFramingRequest
  split
  · dsimp only
    split
    · exact State.SameMap.keepsStreams ⟨rfl, rfl, rfl, rfl, rfl⟩
    · exact .refl s
  · exact .refl s

theorem setPortRequest_keepsStreams (m : Message) (s : State) : s.KeepsStreams (setPortRequest m s).2 := by
  unfold setPortRequest
  split
  · split
    · split
      · exact .refl s
      · exact State.setPort_keepsStreams ⟨id, fun _ => rfl, rfl, rfl⟩
    · exact .refl s
  · exact .refl s

theorem portStatusRequest_keepsStreams (m : Message) (s : State) : s.KeepsStreams (portStatusRequest m s).2 := by
  unfold portStatusRequest
  split
  · split
    · dsimp only
      split
      · exact State.setPort_keepsStreams ⟨id, fun _ => rfl, rfl, rfl⟩
      · exact .refl s
    · exact .refl s
  · exact .refl s

theorem connectRequest_keepsStreams (m : Message) (s : State) : s.KeepsStreams (connectRequest m s).2 := by
  unfold connectRequest
  split
  · split
    · split
      · exact .refl s
      · exact (s.connect_stream _ _ _ _ _).keepsStreams
    · exact .refl s
  · exact .refl s

theorem guardControlRequest_keepsStreams (m : Message) (s : State) : s.KeepsStreams (guardControlRequest m s).2 := by
  unfold guardControlRequest
  split
  · split
    · split
      · split
        · exact .refl s
        · exact (s.guardCommand_stream _ _ _ _).keepsStreams
      · exact .refl s
    · exact .refl s
  · exact .refl s

theorem planLoadRequest_keepsStreams (m : Message) (s : State) : s.KeepsStreams (planLoadRequest m s).2 := by
  unfold planLoadRequest
  split
  · split
    · exact .refl s
    · split
      · exact .refl s
      · unfold State.loadPlan
        split
        · exact .refl s
        · split
          · exact .refl s
          · split
            · exact .refl s
            · exact (s.setPlan_stream _ _).keepsStreams
  · exact .refl s

/-- A request of one plan keeps what its act keeps (R75, R91, R92, R95). -/
theorem planRequest_keepsStreams (act : SlotId → Plan → State → Answer × State)
    (h : ∀ (k : SlotId) (p : Plan) (t : State), t.KeepsStreams (act k p t).2) (m : Message) (s : State) :
    s.KeepsStreams (planRequest act m s).2 := by
  unfold planRequest
  split
  · split
    · exact .refl s
    · split
      · exact .refl s
      · exact h _ _ s
  · exact .refl s

theorem armRequest_keepsStreams (k : SlotId) (p : Plan) (s : State) : s.KeepsStreams (armRequest k p s).2 := by
  unfold armRequest
  split
  · exact .refl s
  · exact (s.armPlan_stream k p).keepsStreams

theorem fireRequest_keepsStreams (k : SlotId) (p : Plan) (s : State) : s.KeepsStreams (fireRequest k p s).2 := by
  unfold fireRequest
  split
  · exact .refl s
  · split
    · exact .refl s
    · exact (s.firePlan_stream _ _ _).keepsStreams

theorem cancelRequest_keepsStreams (q : Bool) (k : SlotId) (p : Plan) (s : State) :
    s.KeepsStreams (cancelRequest q k p s).2 := by
  unfold cancelRequest
  dsimp only
  split
  · exact (s.setPlan_stream _ _).keepsStreams
  · exact ((s.setPlan_stream _ _).trans (State.letGo_stream _ _ _)).keepsStreams
  all_goals exact .refl s

theorem releaseRequest_keepsStreams (k : SlotId) (p : Plan) (s : State) :
    s.KeepsStreams (releaseRequest k p s).2 := by
  unfold releaseRequest
  split
  · exact .refl s
  · exact .refl s
  all_goals exact (s.setPlan_stream _ _).keepsStreams

theorem groupConfigRequest_keepsStreams (m : Message) (s : State) : s.KeepsStreams (groupConfigRequest m s).2 := by
  unfold groupConfigRequest
  split
  · split
    · exact .refl s
    · split
      · exact .refl s
      · split
        · exact .refl s
        · exact (s.groupTo_sameMap _).keepsStreams
  · exact .refl s

/-- New settings of the generator leave its phase and a frame start that is due (R117, R118). -/
theorem State.configure_keepsStreams (s : State) (enable : Bool) (length gap : Nat) :
    s.KeepsStreams (s.setPattern (s.pattern.configure enable length gap)) := by
  refine ⟨fun hs => ?_, id⟩
  rw [State.streamsWf_iff] at hs ⊢
  exact ⟨hs.ingresses, hs.pattern, fun e => (hs.streams e).congr fun src => by cases src <;> rfl⟩

theorem patternConfigRequest_keepsStreams (m : Message) (s : State) :
    s.KeepsStreams (patternConfigRequest m s).2 := by
  unfold patternConfigRequest
  split
  · dsimp only
    split
    · split
      · exact s.configure_keepsStreams _ _ _
      · exact .refl s
    · exact .refl s
  · exact .refl s

/-- A pool in which every view sends what it sent. -/
theorem State.setPool_keepsStreams (s : State) (p : Pool)
    (h : ∀ e : Port, p.views[e].sending = s.pool.views[e].sending) : s.KeepsStreams (s.setPool p) :=
  (State.StreamReach.of_keeps fun e => s.setPool_keeps e p (by rw [h e])).keepsStreams

theorem enqueue_sending (p : Pool) (e j : Port) (f : Frame) :
    (p.enqueue e f).views[j].sending = p.views[j].sending := by
  unfold Pool.enqueue
  by_cases hj : j = e
  · subst hj
    rw [setView_same]
  · rw [setView_other p e j _ hj]

theorem injectStartRequest_keepsStreams (m : Message) (s : State) : s.KeepsStreams (injectStartRequest m s).2 := by
  have started (e : Port) (n : Nat) (b : Bool) (f : List Byte) : s.KeepsStreams (s.injectStart e n b f).2 := by
    unfold State.injectStart
    dsimp only
    split
    · exact .refl s
    · split
      · exact .refl s
      · split
        · exact s.setPool_keepsStreams _ fun j => enqueue_sending (s.pool.take n) e j _
        · split
          · exact .refl s
          · exact s.setPool_keepsStreams _ fun _ => rfl
  unfold injectStartRequest
  split
  · split
    · dsimp only
      split
      · split
        · exact .refl s
        · exact started _ _ _ _
      · exact .refl s
    · exact .refl s
  · exact .refl s

theorem injectContRequest_keepsStreams (m : Message) (s : State) : s.KeepsStreams (injectContRequest m s).2 := by
  have stored (k : ContextId) (c : Context) (f : List Byte) : s.KeepsStreams (s.injectStore k c f).2 := by
    unfold State.injectStore
    dsimp only
    split
    · exact s.setPool_keepsStreams _ fun j => enqueue_sending (s.pool.setContext k none) c.target j _
    · exact s.setPool_keepsStreams _ fun _ => rfl
  unfold injectContRequest
  split
  · split
    · split
      · exact .refl s
      · split
        · exact .refl s
        · split
          · exact .refl s
          · exact stored _ _ _
    · exact .refl s
  · exact .refl s

theorem injectAbortRequest_keepsStreams (m : Message) (s : State) : s.KeepsStreams (injectAbortRequest m s).2 := by
  unfold injectAbortRequest
  split
  · split
    · exact .refl s
    · split
      · exact .refl s
      · exact s.setPool_keepsStreams _ fun _ => rfl
  · exact .refl s

theorem State.clearConds_sameMap (s : State) (cs : List CondId) : s.SameMap (s.clearConds cs) := by
  unfold State.clearConds
  constructor <;> with_reducible rfl

theorem State.subscribeTo_sameMap (s : State) (ids : List Byte) : s.SameMap (s.subscribeTo ids) := by
  unfold State.subscribeTo
  constructor <;> with_reducible rfl

theorem conditionsClearRequest_keepsStreams (m : Message) (s : State) :
    s.KeepsStreams (conditionsClearRequest m s).2 := by
  unfold conditionsClearRequest
  split
  · split
    · split
      · exact .refl s
      · exact (s.clearConds_sameMap _).keepsStreams
    · exact .refl s
  · exact .refl s

theorem subscribeRequest_keepsStreams (m : Message) (s : State) : s.KeepsStreams (subscribeRequest m s).2 := by
  unfold subscribeRequest
  split
  · split
    · split
      · exact .refl s
      · exact (s.subscribeTo_sameMap _).keepsStreams
    · exact .refl s
  · exact .refl s

theorem restartRequest_keepsStreams (m : Message) (s : State) : s.KeepsStreams (restartRequest m s).2 := by
  unfold restartRequest
  split
  · exact (s.setLink_stream _).keepsStreams
  · exact .refl s

/-! ### Resets (R9, R28, R113) -/

/-- At a reset no ingress reads, no egress sends, and the generator stands in IDLE. -/
theorem State.keepsStreams_of_reset (sd : Port → Bool) (hports : ∀ p : Port, t.ports[p] = Ingress.afterReset (sd p))
    (hpat : t.pattern = Pattern.afterReset) (he : ∀ e : Port, t.egresses[e] = Egress.afterReset) :
    s.KeepsStreams t := by
  refine ⟨fun _ => t.streamsWf_iff.mpr ⟨fun p => ?_, ?_, fun e => ?_⟩, fun _ p hp => ?_⟩
  · rw [hports p]
    cases sd p <;> exact ⟨by decide, fun _ => ⟨rfl, rfl, rfl, rfl⟩, nofun, nofun⟩
  · rw [hpat]
    exact nofun
  · unfold State.StreamOk
    rw [he e]
    exact (Egress.ok_off rfl).mpr ⟨rfl, rfl, rfl, rfl, rfl⟩
  · rw [hports p] at hp
    cases hp

theorem blocksReset_port (s : State) (phase : Phase) (p : Port) :
    (s.blocksReset phase).ports[p] = Ingress.afterReset s.ports[p].sd :=
  Vector.getElem_map _ p.isLt

theorem blocksReset_egress (s : State) (phase : Phase) (e : Port) :
    (s.blocksReset phase).egresses[e] = Egress.afterReset :=
  Vector.getElem_replicate e.isLt

theorem State.enterReset_keepsStreams (s : State) (phase : Phase) (tep : Bool) :
    s.KeepsStreams (s.enterReset phase tep) :=
  State.keepsStreams_of_reset _ (fun p => blocksReset_port (s.groupTo .unset) phase p) rfl
    fun e => blocksReset_egress (s.groupTo .unset) phase e

theorem State.endReset_keepsStreams (s u : State) (cause : ResetCause) (straps : Straps) :
    s.KeepsStreams (u.endReset cause straps).arbitrate := by
  have h := ((State.notify_sameMap _ (.hello cause straps)).trans (u.endReset cause straps).arbitrate_sameMap)
  refine State.keepsStreams_of_reset (fun p => u.ports[p].sd) (fun p => ?_) h.pattern fun e => ?_
  · rw [h.ports]
    exact blocksReset_port u .run p
  · rw [h.egresses]
    exact blocksReset_egress u .run e

theorem State.trackSd_keepsStreams (s : State) (p : Port) (level : Bool) : s.KeepsStreams (s.trackSd p level) :=
  State.setPort_keepsStreams ⟨id, fun _ => rfl, rfl, rfl⟩

/-! ### The link (R157 to R162) -/

theorem State.takeIn_sameMap (s : State) (kind tag : Byte) (payload : List Byte) :
    s.SameMap (s.takeIn kind tag payload) := by
  unfold State.takeIn State.refuseAtIntake
  split
  · split
    · exact ⟨rfl, rfl, rfl, rfl, rfl⟩
    · exact s.occur_sameMap _
  · exact ⟨rfl, rfl, rfl, rfl, rfl⟩

theorem State.setLink_sameMap (s : State) (l : Link) : s.SameMap (s.setLink l) := ⟨rfl, rfl, rfl, rfl, rfl⟩

theorem State.messageReceived_sameMap (s : State) (kind tag : Byte) (payload : List Byte) :
    s.SameMap (s.messageReceived kind tag payload) :=
  (s.setLink_sameMap _).trans (State.takeIn_sameMap _ _ _ _)

theorem State.messageDiscarded_sameMap (s : State) : s.SameMap s.messageDiscarded :=
  (s.setLink_sameMap _).trans (State.occur_sameMap _ _)

theorem State.takeByte_sameMap (s : State) (b : Byte) (err : Bool) : s.SameMap (s.takeByte b err) := by
  have bodies (got : List Byte) : s.SameMap (s.bodyReceived got) := by
    unfold State.bodyReceived
    split
    · exact s.messageReceived_sameMap _ _ _
    · exact s.setLink_sameMap _
    · exact s.setLink_sameMap _
  unfold State.takeByte
  split
  · split
    · exact s.setLink_sameMap _
    · exact .refl s
  · split
    · exact s.messageDiscarded_sameMap
    · split <;> exact s.setLink_sameMap _
  · split
    · exact s.messageDiscarded_sameMap
    · split <;> exact s.setLink_sameMap _
  · split
    · exact s.messageDiscarded_sameMap
    · exact s.setLink_sameMap _
  · split
    · exact s.messageDiscarded_sameMap
    · split
      · exact bodies _
      · exact s.messageDiscarded_sameMap

/-! ### Frames of the generator and of INJECT (R115, R134, R135) -/

/-- A frame start of the generator offers OPEN, or FILL as it goes to IDLE (R115). -/
theorem State.patternFrameStart_keepsStreams (s : State) (hs : s.pattern.atFrameStart = true)
    (ho : s.sourceOpen .pattern = true) :
    s.KeepsStreams ((s.setPattern s.pattern.frameStart.1).offer .pattern s.pattern.frameStart.2) := by
  refine ⟨fun hw => ?_, id⟩
  have h := hw.opened _ ho
  have hb : s.pattern.betweenFrames = true := by
    unfold Pattern.atFrameStart at hs
    rcases Bool.or_eq_true _ _ ▸ hs with hs | hs
    · exact h.pattern hs
    · unfold Pattern.betweenFrames
      split at hs
      · rename_i hph; rw [hph]
      · cases hs
      · rename_i hph; rw [hph]
  have hframe : (s.pattern.frameStart.2 = .opn ∨ s.pattern.frameStart.2 = .fill)
      ∧ s.pattern.frameStart.1.betweenFrames = !positionAfter s.pattern.frameStart.2 false
      ∧ s.pattern.frameStart.1.startDue = false := by
    unfold Pattern.frameStart
    split
    · exact ⟨.inl rfl, by simp [Pattern.betweenFrames, positionAfter], rfl⟩
    · exact ⟨.inr rfl, rfl, rfl⟩
  obtain ⟨hc, hafter, hdue⟩ := hframe
  refine State.StreamsOpen.streamsWf (opened := noSource) ⟨h.ingresses, fun hx => ?_, State.offer_streams (s := s)
    (by simp) rfl (fun e => ⟨fun _ => hc.imp_right .inl, fun hx => ?_, ?_,
      fun x hx => setPattern_betweenFrames s _ e x hx⟩) h.streams rfl⟩
  · rw [show s.pattern.frameStart.1.startDue = true from hx] at hdue
    cases hdue
  · rw [show s.betweenFrames e .pattern = true from hb] at hx
    cases hx
  · rw [show s.betweenFrames e .pattern = true from hb]
    exact hafter

theorem Egress.receive_steady {g : Egress} {src : Source} {c : Character} (hs : g.state = .steady)
    (hc : g.current = src) : g.receive src c = { g with line := some c, inside := positionAfter c g.inside } := by
  unfold Egress.receive
  rw [if_pos hc]
  split
  case h_1 => rfl
  all_goals
    rename_i h
    rw [hs] at h
    cases h

/-- The head frame of a view starts with OPEN on an egress that is STEADY on INJECT (R134). -/
theorem State.startFrame_stream (s : State) (e : Port) (h : s.frameMayStart e = true) :
    s.StreamReach (s.startFrame e) := by
  simp only [State.frameMayStart, Bool.and_eq_true, decide_eq_true_eq] at h
  obtain ⟨⟨⟨⟨hs, hc⟩, -⟩, -⟩, -⟩ := h
  unfold State.startFrame
  dsimp only
  split
  · exact .refl s
  · refine ((s.setPool_onlyAt e _ fun j hj => setView_other s.pool e j _ hj).trans
      (State.setEgress_onlyAt _ e (s.egresses[e].receive .inject .opn) (Egress.receive_entry _ _ _))).stream_of
      fun opened _ hok => State.setEgress_streamOk ?_
    obtain ⟨h1, h2, h3, -, -⟩ := (Egress.ok_steady hs).mp hok
    rw [Egress.receive_steady hs hc]
    refine (Egress.ok_steady (by exact hs)).mpr ⟨h1, h2, h3, ?_, rfl⟩
    show true = !(s.setPool _).betweenFrames e s.egresses[e].current
    rw [hc]
    show true = !Option.isNone _
    rw [Machine.setPool_pool, setView_same]
    rfl

/-- The SHUT of a frame of INJECT is sent, and in a drain ends it (R135, R37). -/
theorem State.sendShut_stream (s : State) (e : Port) (h : s.shutReady e = true) : s.StreamReach (s.sendShut e) := by
  simp only [State.shutReady, Bool.and_eq_true, decide_eq_true_eq, Bool.or_eq_true] at h
  obtain ⟨⟨-, hc⟩, hs⟩ := h
  unfold State.sendShut
  split
  · exact s.endDrain_stream e .shut rfl
  · rename_i hn
    have hat := (s.setEgress_onlyAt e { s.egresses[e] with line := some .shut, inside := false } rfl).trans
      (State.injectSent_onlyAt _ e)
    refine hat.stream_of fun opened _ hok => ?_
    have hs : s.egresses[e].state = .steady := hs.resolve_right fun hs => by
      have := ((Egress.ok_draining hs).mp hok).2.1
      rw [hn] at this
      cases this
    obtain ⟨h1, h2, h3, -, -⟩ := (Egress.ok_steady hs).mp hok
    have he := State.injectSent_ends (s.setEgress e { s.egresses[e] with line := some .shut, inside := false }) e
    unfold State.StreamOk
    rw [he.egress, setEgress_same]
    refine (Egress.ok_steady (by exact hs)).mpr ⟨h1, h2, h3, ?_, rfl⟩
    show false = !State.betweenFrames _ e s.egresses[e].current
    rw [hc]
    show false = !Option.isNone _
    rw [he.sending]
    rfl

/-! ### Every command -/

theorem execTrackerRead_keepsStreams (p : Port) (h : execTrackerRead p s = .next t) : s.KeepsStreams t := by
  cases h
  refine State.event_keepsStreams _ _ fun _ ho => ⟨fun hs => State.read_streamsWf p hs ho, fun _ => ?_⟩
  exact State.afterRead_marksWait _

theorem execSendComplete_keepsStreams (h : execSendComplete s = .next t) : s.KeepsStreams t := by
  unfold execSendComplete at h
  split at h
  · split at h
    · cases h
      exact (s.setDraws_sameMap _).keepsStreams.trans (State.enterReset_keepsStreams _ _ _)
    · cases h
      exact State.arbitrate_keepsStreams (s.setLink_stream _).keepsStreams
  · cases h
    exact .refl s

theorem execDrainEnd_keepsStreams (e : Port) (h : execDrainEnd e s = .next t) : s.KeepsStreams t := by
  cases h
  refine State.event_keepsStreams _ _ fun _ hd => ?_
  split
  · exact .refl s
  · rename_i c hc
    simp only [Egress.terminatorDue, Bool.and_eq_true, decide_eq_true_eq] at hd
    rw [hc] at hd
    exact (s.endDrain_stream e c (by simpa using hd.2)).keepsStreams

theorem execHardwareResetEnd_keepsStreams (i : Inputs) (h : execHardwareResetEnd i s = .next t) :
    s.KeepsStreams t := by
  unfold execHardwareResetEnd at h
  split at h <;> cases h
  · exact s.endReset_keepsStreams _ _ _
  · exact .refl s
  · exact .refl s

theorem execRestartEnd_keepsStreams (straps : Straps) (h : execRestartEnd straps s = .next t) : s.KeepsStreams t := by
  unfold execRestartEnd at h
  split at h <;> cases h
  · exact s.endReset_keepsStreams _ _ _
  · exact .refl s
  · exact .refl s

theorem execPlanRead_keepsStreams (h : execPlanRead s = .next t) : s.KeepsStreams t := by
  cases h
  refine State.execute_keepsStreams _ _ fun m t => ?_
  unfold planReadRequest
  split
  · split
    · exact .refl t
    · split <;> exact .refl t
  · exact .refl t

theorem execSdDeassert_keepsStreams (p : Port) (h : execSdDeassert p s = .next t) : s.KeepsStreams t := by
  unfold execSdDeassert at h
  split at h <;> cases h
  · exact State.event_keepsStreams _ _ fun _ _ => State.setPort_keepsStreams ⟨id, fun _ => rfl, rfl, rfl⟩
  · exact s.trackSd_keepsStreams p _
  · exact s.trackSd_keepsStreams p _

theorem execSdAssert_keepsStreams (p : Port) (h : execSdAssert p s = .next t) : s.KeepsStreams t := by
  unfold execSdAssert at h
  split at h <;> cases h
  · exact State.event_keepsStreams _ _ fun _ _ => State.putIngress_keepsStreams (Ingress.sdAsserted_same _)
  · exact s.trackSd_keepsStreams p _
  · exact s.trackSd_keepsStreams p _

theorem execSdLossTimerExpiry_keepsStreams (p : Port) (h : execSdLossTimerExpiry p s = .next t) :
    s.KeepsStreams t := by
  cases h
  exact State.event_keepsStreams _ _ fun _ _ =>
    State.putIngress_keepsStreams ((Ingress.lose_same _ rfl).trans ⟨id, fun _ => rfl, rfl, rfl⟩)

theorem execNoiseWindowEnd_keepsStreams (p : Port) (h : execNoiseWindowEnd p s = .next t) : s.KeepsStreams t := by
  cases h
  refine State.event_keepsStreams _ _ fun _ hw => ?_
  split
  · exact .refl s
  · exact State.putIngress_keepsStreams (Ingress.endWindow_same _ _ hw)

theorem execEditSettle_keepsStreams (e : Port) (h : execEditSettle e s = .next t) : s.KeepsStreams t := by
  cases h
  refine State.event_keepsStreams _ _ fun _ _ => ?_
  split
  · exact .refl s
  · exact (s.takeEditSettle_stream e _).keepsStreams

theorem execArmExpiry_keepsStreams (k : SlotId) (h : execArmExpiry k s = .next t) : s.KeepsStreams t := by
  cases h
  refine State.event_keepsStreams _ _ fun _ _ => ?_
  split
  · exact .refl s
  · exact (s.expirePlan_stream k _ _ _).keepsStreams

theorem execGroupWaitExpiry_keepsStreams (k : SlotId) (q : Bool) (h : execGroupWaitExpiry k q s = .next t) :
    s.KeepsStreams t := by
  cases h
  refine State.event_keepsStreams _ _ fun _ _ => ?_
  split
  · exact .refl s
  · exact (s.expirePlan_stream k _ _ _).keepsStreams

theorem execHoldOffExpiry_keepsStreams (e : Port) (h : execHoldOffExpiry e s = .next t) : s.KeepsStreams t := by
  cases h
  refine State.event_keepsStreams _ _ fun _ _ => ?_
  split
  · exact .refl s
  · exact (s.guardMoves_stream e _).keepsStreams

theorem execGrdyLevelChange_keepsStreams (high : Bool) (h : execGrdyLevelChange high s = .next t) :
    s.KeepsStreams t := by
  unfold execGrdyLevelChange at h
  split at h <;> cases h
  · exact State.event_keepsStreams _ _ fun _ _ => (s.setGroup_stream _).keepsStreams
  · exact (s.setGroup_stream _).keepsStreams
  · exact (s.setGroup_stream _).keepsStreams

theorem execQualificationComplete_keepsStreams (h : execQualificationComplete s = .next t) : s.KeepsStreams t := by
  cases h
  exact State.event_keepsStreams _ _ fun _ _ =>
    ((s.setGroup_stream _).trans (State.takeGroupFire_stream _)).keepsStreams

theorem execHoldExpiry_keepsStreams (h : execHoldExpiry s = .next t) : s.KeepsStreams t := by
  cases h
  refine State.event_keepsStreams _ _ fun _ _ => State.SameMap.keepsStreams ?_
  unfold State.groupHoldEnds
  split
  · exact s.groupTo_sameMap _
  · split
    · exact s.groupTo_sameMap _
    · exact s.groupEnter_sameMap _

theorem execPatternFrameStart_keepsStreams (h : execPatternFrameStart s = .next t) : s.KeepsStreams t := by
  cases h
  refine State.event_keepsStreams _ _ fun _ hc => ?_
  obtain ⟨hs, ho⟩ := Bool.and_eq_true_iff.mp hc
  exact s.patternFrameStart_keepsStreams hs ho

theorem execAssemblyTimeout_keepsStreams (k : ContextId) (h : execAssemblyTimeout k s = .next t) :
    s.KeepsStreams t := by
  cases h
  refine State.event_keepsStreams _ _ fun _ _ => ?_
  split
  · exact .refl s
  · rename_i c _
    have hfree : s.KeepsStreams (s.setPool (s.pool.freeUp k c)) := s.setPool_keepsStreams _ fun _ => rfl
    exact hfree.trans (State.notify_sameMap _ _).keepsStreams

theorem State.setSense_sameMap (s : State) (n : SenseId) (k : Sense) : s.SameMap (s.setSense n k) := by
  unfold State.setSense
  constructor <;> with_reducible rfl

theorem execSenseRise_keepsStreams (n : SenseId) (h : execSenseRise n s = .next t) : s.KeepsStreams t := by
  unfold execSenseRise at h
  split at h <;> cases h
  · exact State.event_keepsStreams _ _ fun _ _ => (State.setSense_sameMap _ _ _).keepsStreams
  · exact (State.setSense_sameMap _ _ _).keepsStreams
  · exact (State.setSense_sameMap _ _ _).keepsStreams

theorem execSenseFall_keepsStreams (n : SenseId) (h : execSenseFall n s = .next t) : s.KeepsStreams t := by
  unfold execSenseFall at h
  split at h <;> cases h
  · exact State.event_keepsStreams _ _ fun _ _ => (State.setSense_sameMap _ _ _).keepsStreams
  · exact (State.setSense_sameMap _ _ _).keepsStreams
  · exact (State.setSense_sameMap _ _ _).keepsStreams

theorem execSenseQualified_keepsStreams (n : SenseId) (h : execSenseQualified n s = .next t) : s.KeepsStreams t := by
  cases h
  refine State.event_keepsStreams _ _ fun _ _ => ?_
  have h : s.StreamReach ((s.setSense n { s.senses[n] with qualifier := .high }).occur (senseCond n)) :=
    (s.setSense_sameMap _ _).stream.trans (State.occur_stream _ _)
  unfold State.qualifySense
  dsimp only
  split
  · exact h.keepsStreams
  · exact (h.trans (State.fireWaiting_stream _ _)).keepsStreams

/-- Every command keeps the streams well formed and MARK events waiting on reads, each by what its unit's operations
keep (R30, R81). -/
theorem exec_keepsStreams (c : Instr) (s t : State) (h : exec c s = .next t) : s.KeepsStreams t := by
  cases c
  case hardwareReset cause tep => cases h; exact s.enterReset_keepsStreams _ _
  case hardwareResetEnd i => exact execHardwareResetEnd_keepsStreams i h
  case restartEnd straps => exact execRestartEnd_keepsStreams straps h
  case requestArrival =>
    cases h
    exact State.event_keepsStreams _ _ fun _ _ => (s.messageReceived_sameMap _ _ _).keepsStreams
  case checkFailure => cases h; exact State.event_keepsStreams _ _ fun _ _ => s.messageDiscarded_sameMap.keepsStreams
  case lenOutOfRange => cases h; exact State.event_keepsStreams _ _ fun _ _ => (s.setLink_stream _).keepsStreams
  case gapTimerExpiry =>
    cases h
    exact State.event_keepsStreams _ _ fun _ _ => ((s.setLink_stream _).trans (State.occur_stream _ _)).keepsStreams
  case byteReceived => cases h; exact State.event_keepsStreams _ _ fun _ _ => (s.takeByte_sameMap _ _).keepsStreams
  case sendComplete => exact execSendComplete_keepsStreams h
  case unknownRequestKind => cases h; exact State.execute_keepsStreams _ _ fun _ t => .refl t
  case echo => cases h; exact State.execute_keepsStreams _ _ fun m t => by unfold echoRequest; split <;> exact .refl t
  case status =>
    cases h
    exact State.execute_keepsStreams _ _ fun m t => by unfold statusRequest; split <;> exact .refl t
  case restart => cases h; exact State.execute_keepsStreams _ _ restartRequest_keepsStreams
  case setFraming => cases h; exact State.execute_keepsStreams _ _ setFramingRequest_keepsStreams
  case setPort => cases h; exact State.execute_keepsStreams _ _ setPortRequest_keepsStreams
  case portStatus => cases h; exact State.execute_keepsStreams _ _ portStatusRequest_keepsStreams
  case connect => cases h; exact State.execute_keepsStreams _ _ connectRequest_keepsStreams
  case mapRead =>
    cases h
    exact State.execute_keepsStreams _ _ fun m t => by unfold mapReadRequest; split <;> exact .refl t
  case guardControl => cases h; exact State.execute_keepsStreams _ _ guardControlRequest_keepsStreams
  case planLoad => cases h; exact State.execute_keepsStreams _ _ planLoadRequest_keepsStreams
  case planArm => cases h; exact State.execute_keepsStreams _ _ (planRequest_keepsStreams _ armRequest_keepsStreams)
  case planFire => cases h; exact State.execute_keepsStreams _ _ (planRequest_keepsStreams _ fireRequest_keepsStreams)
  case planCancel q =>
    cases h
    exact State.execute_keepsStreams _ _ (planRequest_keepsStreams _ (cancelRequest_keepsStreams q))
  case planRelease =>
    cases h
    exact State.execute_keepsStreams _ _ (planRequest_keepsStreams _ releaseRequest_keepsStreams)
  case planRead => exact execPlanRead_keepsStreams h
  case groupConfig => cases h; exact State.execute_keepsStreams _ _ groupConfigRequest_keepsStreams
  case groupStatus =>
    cases h
    exact State.execute_keepsStreams _ _ fun m t => by unfold groupStatusRequest; split <;> exact .refl t
  case patternConfig => cases h; exact State.execute_keepsStreams _ _ patternConfigRequest_keepsStreams
  case injectStart => cases h; exact State.execute_keepsStreams _ _ injectStartRequest_keepsStreams
  case injectCont => cases h; exact State.execute_keepsStreams _ _ injectContRequest_keepsStreams
  case injectAbort => cases h; exact State.execute_keepsStreams _ _ injectAbortRequest_keepsStreams
  case poolStatus =>
    cases h
    exact State.execute_keepsStreams _ _ fun m t => by unfold poolStatusRequest; split <;> exact .refl t
  case conditionsRead =>
    cases h
    exact State.execute_keepsStreams _ _ fun m t => by unfold conditionsReadRequest; split <;> exact .refl t
  case conditionsClear => cases h; exact State.execute_keepsStreams _ _ conditionsClearRequest_keepsStreams
  case subscribe => cases h; exact State.execute_keepsStreams _ _ subscribeRequest_keepsStreams
  case sdDeassert p => exact execSdDeassert_keepsStreams p h
  case sdAssert p => exact execSdAssert_keepsStreams p h
  case sdLossTimerExpiry p => exact execSdLossTimerExpiry_keepsStreams p h
  case characterReceived p c re =>
    cases h
    exact State.event_keepsStreams _ _ fun _ _ => State.putIngress_keepsStreams (Ingress.receiveCharacter_same _ c re)
  case trackerRead p => exact execTrackerRead_keepsStreams p h
  case noiseWindowEnd p => exact execNoiseWindowEnd_keepsStreams p h
  case trafficTimerExpiry p =>
    cases h
    exact State.event_keepsStreams _ _ fun _ _ => State.putIngress_keepsStreams (Ingress.trafficExpired_same _)
  case drainEnd e => exact execDrainEnd_keepsStreams e h
  case deadlineExpiry e =>
    cases h
    exact State.event_keepsStreams _ _ fun _ _ => (s.expireDeadline_stream e).keepsStreams
  case joinComplete e => cases h; exact State.event_keepsStreams _ _ fun _ _ => (s.tryJoin_stream e).keepsStreams
  case editSettle e => exact execEditSettle_keepsStreams e h
  case armExpiry k => exact execArmExpiry_keepsStreams k h
  case groupWaitExpiry k q => exact execGroupWaitExpiry_keepsStreams k q h
  case holdOffExpiry e => exact execHoldOffExpiry_keepsStreams e h
  case waitToRestoreExpiry e =>
    cases h
    exact State.event_keepsStreams _ _ fun _ _ => (s.guardSwitch_stream e _ _ _).keepsStreams
  case grdyLevelChange high => exact execGrdyLevelChange_keepsStreams high h
  case qualificationComplete => exact execQualificationComplete_keepsStreams h
  case holdExpiry => exact execHoldExpiry_keepsStreams h
  case faultTimerExpiry =>
    cases h
    exact State.event_keepsStreams _ _ fun _ _ => ((s.setGroup_stream _).trans (State.occur_stream _ _)).keepsStreams
  case patternFrameStart => exact execPatternFrameStart_keepsStreams h
  case injectFrameStart e =>
    cases h
    exact State.event_keepsStreams _ _ fun _ hc => (s.startFrame_stream e hc).keepsStreams
  case injectFrameSent e =>
    cases h
    exact State.event_keepsStreams _ _ fun _ hc => (s.sendShut_stream e hc).keepsStreams
  case assemblyTimeout k => exact execAssemblyTimeout_keepsStreams k h
  case senseRise n => exact execSenseRise_keepsStreams n h
  case senseFall n => exact execSenseFall_keepsStreams n h
  case senseQualified n => exact execSenseQualified_keepsStreams n h

end

/-- Settles O59: every command, and a character time with nothing due, leaves each egress in step with its source; a
MARK event that waits is taken with the last read of its character time. -/
theorem everyStepKeepsStreamsWellFormed : Obligations.EveryStepKeepsStreamsWellFormed := by
  constructor
  · exact keptByStep_of_exec _ (fun _ _ h => h) (fun _ _ h => h) (fun c s t hs h => (exec_keepsStreams c s t h).1 hs)
      fun s hs h => (State.newTime_keepsStreams h).1 hs
  · exact keptByStep_of_exec _ (fun _ _ h => h) (fun _ _ h => h) (fun c s t hs h => (exec_keepsStreams c s t h).2 hs)
      fun s hs h => (State.newTime_keepsStreams h).2 hs

end Sys2Proof.Machine
end

section
/-! The frame tracker item by item (R15 to R18), and the pattern check (R22). -/

namespace Sys2Proof.Machine

/-! ### The tracker -/

/-- What one item gives: the character and its position, the tracker's state, the counters that go up in turn, and the
event. -/
def Ingress.gives (g : Ingress) (c : Character) (inside : Bool) (t : Tracker) (ks : List Counter) (ev : TrackEvent) :
    Tracked :=
  { emitted := c, inside := inside, event := ev
    after := { g with
      tracker := t
      counters := ks.foldl (fun x k => x.set k.index (satInc x[k.index])) g.counters } }

section
variable {g : Ingress} (maxframe : Nat)

theorem Ingress.track_of_outside (item : ReadItem) (h : g.tracker = .outside) (hi : item ≠ .owedAbort) :
    g.track maxframe item = g.trackOutside maxframe item := by
  unfold Ingress.track
  rw [if_neg hi, h]

theorem Ingress.track_of_inside {count limit : Nat} {seq : Half} {ok : Bool} (item : ReadItem)
    (h : g.tracker = .inside count limit seq ok) (hi : item ≠ .owedAbort) :
    g.track maxframe item = g.trackInside count limit seq ok item := by
  unfold Ingress.track
  rw [if_neg hi, h]

theorem Ingress.track_of_discard (item : ReadItem) (h : g.tracker = .discard) (hi : item ≠ .owedAbort) :
    g.track maxframe item = g.trackDiscard maxframe item := by
  unfold Ingress.track
  rw [if_neg hi, h]

/-- An OPEN between frames is accepted, with MAXFRAME latched (R15, R18, R24). -/
theorem Ingress.track_open (h : g.tracker = .outside ∨ g.tracker = .discard) :
    g.track maxframe (.char .opn) = g.gives .opn true (.inside 0 maxframe 0 true) [] .none := by
  rcases h with h | h
  · exact g.track_of_outside maxframe _ h nofun
  · exact g.track_of_discard maxframe _ h nofun

/-- What emits FILL and changes nothing leaves the tracker where it was. -/
theorem emitFill_gives {t : Tracker} (h : g.tracker = t) : emitFill g = g.gives .fill false t [] .none := by
  subst h
  rfl

theorem emitFill_bump_gives {t : Tracker} (k : Counter) (h : g.tracker = t) :
    emitFill (g.bump k) = g.gives .fill false t [k] .none := by
  subst h
  rfl

/-- A character of OUTSIDE that opens no frame and counts for nothing is replaced by FILL (R15). -/
theorem Ingress.track_outside_fill {item : ReadItem} (h : g.tracker = .outside)
    (hi : item = .char .fill ∨ (∃ v, item = .char (.data v)) ∨ item = .char .violation ∨ item = .inserted
      ∨ item = .slipMark ∨ item = .idle) :
    g.track maxframe item = g.gives .fill false .outside [] .none := by
  rw [← emitFill_gives h]
  rcases hi with rfl | ⟨v, rfl⟩ | rfl | rfl | rfl | rfl <;> exact g.track_of_outside maxframe _ h nofun

/-- A terminator in OUTSIDE is stray (R15). -/
theorem Ingress.track_outside_stray {item : ReadItem} (h : g.tracker = .outside)
    (hi : item = .char .shut ∨ item = .char .abort) :
    g.track maxframe item = g.gives .fill false .outside [.strayDelimiters] .none := by
  rw [← emitFill_bump_gives _ h]
  rcases hi with rfl | rfl <;> exact g.track_of_outside maxframe _ h nofun

theorem Ingress.track_outside_mark (h : g.tracker = .outside) :
    g.track maxframe (.char .mark) = g.gives .mark false .outside [.marks] .mark := by
  rw [g.track_of_outside maxframe (.char .mark) h nofun, ← h]
  rfl

/-- A lost OPEN costs a frame wherever the tracker reads it between frames (R13). -/
theorem Ingress.track_lostOpen (h : g.tracker = .outside ∨ g.tracker = .discard) :
    g.track maxframe .lostOpen = g.gives .fill false .discard [.slips, .framesCut] .none := by
  rcases h with h | h
  · exact g.track_of_outside maxframe _ h nofun
  · rw [g.track_of_discard maxframe .lostOpen h nofun, ← h]
    rfl

/-- In DISCARD every other item is replaced by FILL (R18). -/
theorem Ingress.track_discard_fill {item : ReadItem} (h : g.tracker = .discard)
    (hi : item = .char .fill ∨ item = .char .mark ∨ item = .char .shut ∨ item = .char .abort
      ∨ (∃ v, item = .char (.data v)) ∨ item = .char .violation ∨ item = .inserted ∨ item = .slipMark) :
    g.track maxframe item = g.gives .fill false .discard [] .none := by
  rw [← emitFill_gives h]
  rcases hi with rfl | rfl | rfl | rfl | ⟨v, rfl⟩ | rfl | rfl | rfl <;> exact g.track_of_discard maxframe _ h nofun

section
variable {count limit : Nat} {seq : Half} {ok : Bool} (h : g.tracker = .inside count limit seq ok)
include h

/-- DATA below the latched limit passes and is checked (R16, R22). -/
theorem Ingress.track_inside_data (v : Byte) (hl : count < limit) : g.track maxframe (.char (.data v))
    = g.gives (.data v) true
        (.inside (count + 1) limit (checkData seq ok count v).1 (checkData seq ok count v).2) [] .none := by
  exact (g.track_of_inside maxframe (.char (.data v)) h nofun).trans (if_pos hl)

/-- DATA at the limit makes the frame a runaway (R17). -/
theorem Ingress.track_inside_runaway (v : Byte) (hl : limit ≤ count) :
    g.track maxframe (.char (.data v)) = g.gives .abort true .discard [.runaways] .none := by
  exact (g.track_of_inside maxframe (.char (.data v)) h nofun).trans (if_neg (Nat.not_lt.mpr hl))

theorem Ingress.track_inside_shut : g.track maxframe (.char .shut)
    = g.gives .shut true .outside [.framesGood] (.goodFrame count seq ok) :=
  g.track_of_inside maxframe _ h nofun

theorem Ingress.track_inside_abort :
    g.track maxframe (.char .abort) = g.gives .abort true .outside [.framesAborted] .none :=
  g.track_of_inside maxframe _ h nofun

/-- What has no place in a frame cuts it (R17). -/
theorem Ingress.track_inside_cut {item : ReadItem} (hi : item = .char .violation ∨ item = .char .fill
      ∨ item = .inserted ∨ item = .char .mark ∨ item = .char .opn) :
    g.track maxframe item = g.gives .abort true .discard [.framesCut] .none := by
  rcases hi with rfl | rfl | rfl | rfl | rfl <;> exact g.track_of_inside maxframe _ h nofun

/-- A slip cuts it too (R12, R13). -/
theorem Ingress.track_inside_slip {item : ReadItem} (hi : item = .slip ∨ item = .slipMark ∨ item = .lostOpen) :
    g.track maxframe item = g.gives .abort true .discard [.slips, .framesCut] .none := by
  rcases hi with rfl | rfl | rfl <;> exact g.track_of_inside maxframe _ h nofun

end

end

/-! ### The bytes of a pattern frame (R114) -/

theorem satInc_word (x : Word32) : (satInc x).toNat = min 4294967295 (x.toNat + 1) := by
  have hlt := x.isLt
  rw [satInc_toNat]
  split
  · rename_i hx
    subst hx
    rfl
  · rename_i hx
    have hne : x.toNat ≠ 4294967295 := fun hn => hx (BitVec.eq_of_toNat_eq hn)
    omega

/-- The first two bytes are the sequence number, and byte `n` after them is what R114 gives (R22). -/
theorem checkData_eq (seq : Half) (ok : Bool) (n : Nat) (v : Byte) : checkData seq ok n v =
    if n = 0 then (v ++ (0 : Byte), ok)
    else if n = 1 then (seq.extractLsb' 8 8 ++ v, ok)
    else (seq, ok && decide (v.toNat = (seq.toNat + 7 * n) % 256)) := by
  unfold checkData
  split
  · rfl
  · split
    · rfl
    · rename_i h0 h1
      have hv : v = patternByte seq n ↔ v.toNat = (seq.toNat + 7 * n) % 256 := by
        unfold patternByte
        rw [if_neg h0, if_neg h1, ← BitVec.toNat_inj, BitVec.toNat_ofNat]
      rw [decide_eq_decide.mpr hv]

/-- Settles O21: every item in every state of the tracker. -/
theorem frameTrackerTable : Obligations.FrameTrackerTable := by
  refine ⟨satInc_word, fun g maxframe count limit seq ok v => ⟨fun h => ?_, fun h => ?_, fun h => ?_⟩⟩
  · have fill {item} := g.track_outside_fill maxframe (item := item) h
    have stray {item} := g.track_outside_stray maxframe (item := item) h
    exact ⟨fill (.inl rfl), g.track_outside_mark maxframe h, g.track_open maxframe (.inl h), stray (.inl rfl),
      stray (.inr rfl), fill (.inr (.inl ⟨v, rfl⟩)), fill (by simp), fill (by simp), fill (by simp), fill (by simp),
      g.track_lostOpen maxframe (.inl h)⟩
  · refine ⟨fun hl => ?_, g.track_inside_runaway maxframe h v, g.track_inside_shut maxframe h,
      g.track_inside_abort maxframe h, fun _ => g.track_inside_cut maxframe h, fun _ => g.track_inside_slip maxframe h⟩
    rw [← checkData_eq]
    exact g.track_inside_data maxframe h v hl
  · refine ⟨g.track_open maxframe (.inr h), g.track_lostOpen maxframe (.inr h),
      fun item hi => g.track_discard_fill maxframe h ?_⟩
    rcases hi with hi | hi | hi | hi | hi | hi | hi | hi <;> simp [hi]

/-! ### The pattern check (R22) -/

section
variable {g : Ingress} {m n : Nat} {seq : Half} {ok : Bool} (hg : g.mode = .verify)
include hg

theorem Ingress.patternCheck_bad (h : n ≠ m ∨ ok = false) : g.patternCheck m n seq ok = g.bump .patternBad := by
  unfold Ingress.patternCheck
  rw [hg]
  refine if_neg fun ⟨hn, hok⟩ => ?_
  rcases h with h | h
  · exact h hn
  · simp [h] at hok

theorem Ingress.patternCheck_good (he : g.expected = none ∨ g.expected = some seq) :
    g.patternCheck m m seq true = { g.bump .patternGood with expected := some (seq + 1) } := by
  unfold Ingress.patternCheck
  rcases he with he | he <;> simp [hg, he]

/-- Another sequence than the one expected leaves a gap. -/
theorem Ingress.patternCheck_gap {e : Half} (he : g.expected = some e) (hne : e ≠ seq) : g.patternCheck m m seq true
    = { (g.bump .patternGood).bump .patternGaps with expected := some (seq + 1) } := by
  unfold Ingress.patternCheck
  simp [hg, he, hne]

end

/-- Settles O24, by the content of the frame and the sequence number expected. -/
theorem patternCheckCountsAndExpects : Obligations.PatternCheckCountsAndExpects := by
  refine fun g m n seq ok hg => ⟨fun hn hok => ?_, g.patternCheck_bad hg⟩
  subst hn hok
  have good := fun he => g.patternCheck_good (m := n) (seq := seq) hg he
  have gap := fun e he hne => g.patternCheck_gap (m := n) (seq := seq) (e := e) hg he hne
  refine ⟨?_, fun he => ?_, fun e he hne => ?_⟩
  rotate_left
  · rw [good he]
  · rw [gap e he hne]
  cases he : g.expected with
  | none => exact congrArg Ingress.expected (good (.inl he))
  | some e =>
    by_cases hne : e = seq
    · exact congrArg Ingress.expected (good (.inr (hne ▸ he)))
    · exact congrArg Ingress.expected (gap e he hne)

end Sys2Proof.Machine
end

section
/-! SET_FRAMING, SET_PORT and PORT_STATUS (R21, R23 to R25). -/

namespace Sys2Proof.Machine

/-! ### SET_FRAMING (R24) -/

section
variable {s : State} {m : Message} {rest : List Message}

theorem execSetFraming_eq (h : s.CanTake m rest 0x10) : exec .setFraming s
    = .next ((setFramingRequest m (s.taken rest)).2.replied m (setFramingRequest m (s.taken rest)).1) :=
  congrArg Host.Outcome.next (s.execute_kind m rest 0x10 setFramingRequest h)

theorem setFramingRequest_ok (t : State) {hi lo : Byte} (hm : m.payload = [hi, lo]) (h : 64 ≤ (hi ++ lo).toNat) :
    setFramingRequest m t = (Answer.ok [], t.setMaxframe (hi ++ lo).toNat) := by
  unfold setFramingRequest
  rw [hm]
  exact if_pos h

theorem setFramingRequest_low (t : State) {hi lo : Byte} (hm : m.payload = [hi, lo]) (h : (hi ++ lo).toNat < 64) :
    setFramingRequest m t = (Answer.refuse .badField, t) := by
  unfold setFramingRequest
  rw [hm]
  exact if_neg (Nat.not_le.mpr h)

theorem setFramingRequest_length (t : State) (h : m.payload.length ≠ 2) :
    setFramingRequest m t = (Answer.refuse .badLength, t) := by
  unfold setFramingRequest
  split
  · rename_i hm
    simp [hm] at h
  · rfl

/-- Inside a frame the tracker keeps the limit that the frame's OPEN latched (R24). -/
theorem Ingress.track_keeps_limit {g : Ingress} {maxframe n limit n' limit' : Nat} {seq seq' : Half} {ok ok' : Bool}
    (item : ReadItem) (h : g.tracker = .inside n limit seq ok)
    (ht : (g.track maxframe item).after.tracker = .inside n' limit' seq' ok') : limit' = limit := by
  by_cases hi : item = .owedAbort
  · subst hi
    simp only [Ingress.track_owedAbort, h, Tracker.inside.injEq] at ht
    exact ht.2.1.symm
  · rw [g.track_of_inside maxframe item h hi] at ht
    unfold Ingress.trackInside at ht
    split at ht
    case h_1 v =>
      split at ht
      · simp only [Ingress.trackTo, Tracker.inside.injEq] at ht
        exact ht.2.1.symm
      · cases ht
    all_goals cases ht

end

/-- Settles O15: the request's three answers, and the tracker's latch. -/
theorem setFramingAppliesToLaterFrames : Obligations.SetFramingAppliesToLaterFrames := by
  refine ⟨fun s m rest h => ⟨fun hi lo hm hn => ?_, fun hi lo hm hn => ?_, fun hn => ?_⟩, fun g maxframe h => ?_,
    fun g maxframe n limit n' limit' seq seq' ok ok' item => g.track_keeps_limit item⟩
  · rw [execSetFraming_eq h, setFramingRequest_ok _ hm hn]
    rfl
  · rw [execSetFraming_eq h, setFramingRequest_low _ hm hn]
  · rw [execSetFraming_eq h, setFramingRequest_length _ hn]
  · rw [g.track_open maxframe h]
    rfl

/-! ### SET_PORT (R21, R23) -/

section
variable {s : State} {m : Message} {rest : List Message}

theorem execSetPort_eq (h : s.CanTake m rest 0x11) : exec .setPort s
    = .next ((setPortRequest m (s.taken rest)).2.replied m (setPortRequest m (s.taken rest)).1) :=
  congrArg Host.Outcome.next (s.execute_kind m rest 0x11 setPortRequest h)

theorem txenMode_read_code (x : TxenMode) : TxenMode.read x.code = some x := by
  cases x <;> rfl

theorem ingressMode_read_code (x : IngressMode) : IngressMode.read x.code = some x := by
  cases x <;> rfl

theorem txenMode_read_above (b : Byte) (h : 3 ≤ b.toNat) : TxenMode.read b = none := by
  revert b; decide

theorem ingressMode_read_above (b : Byte) (h : 2 ≤ b.toNat) : IngressMode.read b = none := by
  revert b; decide

/-- VERIFY named in VERIFY keeps the expected sequence (R21). -/
theorem Ingress.setMode_eq (g : Ingress) (mode : IngressMode) : g.setMode mode = { g with
    mode := mode, expected := if g.mode = .verify ∧ mode = .verify then g.expected else none } := by
  unfold Ingress.setMode
  cases hg : g.mode <;> cases mode <;> rfl

theorem setPortRequest_ok (t : State) (port : Port) (txen : TxenMode) (mode : IngressMode) {n : Byte} (hn : n ≠ 0)
    (hm : m.payload = [natByte port.val, txen.code, n, mode.code]) : setPortRequest m t
    = (Answer.ok [], t.setPort port { t.ports[port].setMode mode with txen := txen, threshold := n }) := by
  unfold setPortRequest
  rw [hm]
  dsimp only
  rw [readBelow_port, txenMode_read_code, ingressMode_read_code]
  exact if_neg hn

theorem setPortRequest_refused (t : State) {p x n v : Byte} (hm : m.payload = [p, x, n, v])
    (h : 16 ≤ p.toNat ∨ n = 0 ∨ 3 ≤ x.toNat ∨ 2 ≤ v.toNat) :
    setPortRequest m t = (Answer.refuse .badField, t) := by
  unfold setPortRequest
  rw [hm]
  dsimp only
  split
  case h_1 port txen mode hp hx hv =>
    split
    · rfl
    · rename_i hn
      rcases h with h | h | h | h
      · simp [readBelow_above 16 p h] at hp
      · exact absurd h hn
      · simp [txenMode_read_above x h] at hx
      · simp [ingressMode_read_above v h] at hv
  case h_2 => rfl

/-- The transmit enable while the part runs (R121). -/
theorem State.txenAsserted_run (n : Port) (h : s.phase = .run) : s.txenAsserted n =
    match s.ports[n].txen with
    | .auto => !decide (s.egresses[n].state = .off)
    | .on => true
    | .off => false := by
  unfold State.txenAsserted
  rw [h]
  cases s.ports[n].txen <;> simp

theorem State.txenHigh_run (n : Port) (h : s.phase = .run) :
    s.txenHigh n = if s.straps.tepHigh then !s.txenAsserted n else s.txenAsserted n := by
  unfold State.txenHigh
  rw [h]
  cases s.straps.tepHigh <;> simp

end

/-- Settles O16: the request's field checks, and the transmit enable by its mode. -/
theorem setPortReplacesThreeSettings : Obligations.SetPortReplacesThreeSettings := by
  refine ⟨fun s m rest p t n v h hm => ⟨fun port txen mode hp ht hv hn => ?_, fun hbad => ?_⟩, fun s n h => ?_⟩
  · have ht' : t = txen.code := by cases txen <;> exact ht
    have hv' : v = mode.code := by cases mode <;> exact hv
    subst hp ht' hv'
    rw [execSetPort_eq h, setPortRequest_ok _ port txen mode hn hm, Ingress.setMode_eq]
    rfl
  · rw [execSetPort_eq h, setPortRequest_refused _ hm hbad]
  · have ha := s.txenAsserted_run n h
    exact ⟨fun hx => by rw [ha, hx], fun hx => by rw [ha, hx], fun hx => by rw [ha, hx], s.txenHigh_run n h⟩

/-! ### PORT_STATUS (R25) -/

section
variable {s : State} {m : Message} {rest : List Message}

theorem execPortStatus_eq (h : s.CanTake m rest 0x12) : exec .portStatus s
    = .next ((portStatusRequest m (s.taken rest)).2.replied m (portStatusRequest m (s.taken rest)).1) :=
  congrArg Host.Outcome.next (s.execute_kind m rest 0x12 portStatusRequest h)

theorem portStatusRequest_ok (t : State) (port : Port) (clear : Bool)
    (hm : m.payload = [natByte port.val, flagByte clear]) : portStatusRequest m t
    = (Answer.ok t.ports[port].statusResult, if clear then t.setPort port t.ports[port].clearCounters else t) := by
  unfold portStatusRequest
  rw [hm]
  dsimp only
  rw [readBelow_port, (readFlag_some _ clear).mpr rfl]

theorem portStatusRequest_refused (t : State) {p c : Byte} (hm : m.payload = [p, c])
    (h : 16 ≤ p.toNat ∨ 2 ≤ c.toNat) : portStatusRequest m t = (Answer.refuse .badField, t) := by
  unfold portStatusRequest
  rw [hm]
  dsimp only
  split
  case h_1 port clear hp hc =>
    rcases h with h | h
    · simp [readBelow_above 16 p h] at hp
    · simp [readFlag_above c h] at hc
  case h_2 => rfl

end

/-! ### Numbers as bytes (R174) -/

theorem halfBytes_toNat (h : Half) : (halfBytes h).map BitVec.toNat = [h.toNat / 256, h.toNat % 256] := by
  have := h.isLt
  simp [halfBytes, BitVec.extractLsb'_toNat, Nat.shiftRight_eq_div_pow]
  omega

theorem wordBytes_toNat (w : Word32) : (wordBytes w).map BitVec.toNat
    = [w.toNat / 16777216, w.toNat / 65536 % 256, w.toNat / 256 % 256, w.toNat % 256] := by
  have := w.isLt
  simp [wordBytes, BitVec.extractLsb'_toNat, Nat.shiftRight_eq_div_pow]
  omega

theorem readHalf_toNat (hi lo : Byte) : (readHalf hi lo).toNat = hi.toNat * 256 + lo.toNat := by
  have := lo.isLt
  unfold readHalf
  rw [BitVec.toNat_append, ← Nat.shiftLeft_add_eq_or_of_lt this, Nat.shiftLeft_eq]

/-- Four bytes for each of the eleven counters, thirteen before them. -/
theorem Ingress.statusResult_length (g : Ingress) : g.statusResult.length = 57 := by
  have hcounters : (g.counters.toList.flatMap wordBytes).length = 44 := by
    rw [List.length_flatMap]
    simp [wordBytes]
  have hexpected : (presentHalf g.expected).length = 3 := by cases g.expected <;> rfl
  simp [Ingress.statusResult, hcounters, hexpected, natHalf, halfBytes]

/-- Settles O17: the request's answers, and the codes and byte orders of the result. -/
theorem portStatusReportsThenClears : Obligations.PortStatusReportsThenClears := by
  refine fun s m rest p c h hm => ⟨fun port hp hc => ?_, fun port hp hc => ?_, fun hbad => ?_, fun g => ⟨?_, ?_⟩, rfl,
    fun _ _ _ _ => rfl, rfl, rfl, rfl, halfBytes_toNat, fun n => ⟨BitVec.toNat_ofNat n 8, rfl⟩, readHalf_toNat, rfl,
    rfl, wordBytes_toNat⟩
  · subst hp hc
    rw [execPortStatus_eq h, portStatusRequest_ok _ port false hm]
    rfl
  · subst hp hc
    rw [execPortStatus_eq h, portStatusRequest_ok _ port true hm]
    rfl
  · rw [execPortStatus_eq h, portStatusRequest_refused _ hm hbad]
  · exact g.statusResult_length
  · unfold Ingress.statusResult flagByte
    cases g.expected <;> rfl

end Sys2Proof.Machine
end

section
/-! What a line event reaches (R8, R51, R102). -/

namespace Sys2Proof.Machine

/-! ### The reach of a line event (R8) -/

/-- From `s` to `t` nothing has changed but what the receivers of a line event have: no ingress, no entry record, and
nothing of an egress without a guard. -/
structure State.LineTouch (s t : State) : Prop where
  frame : ∃ es gs p cs ns l g d, t = { s with
    egresses := es, guards := gs, pool := p, conds := cs, notices := ns, link := l, group := g, draws := d }
  entry : ∀ e : Port, t.egresses[e].entry = s.egresses[e].entry
  unguarded : ∀ e : Port, s.guards[e] = none →
    t.egresses[e] = s.egresses[e] ∧ t.guards[e] = none ∧ t.pool.views[e] = s.pool.views[e]
  only : s.NoticesOnly t linesOccurred

section
variable {s t u : State}

theorem State.LineTouch.refl (s : State) : s.LineTouch s :=
  ⟨⟨_, _, _, _, _, _, _, _, rfl⟩, fun _ => rfl, fun _ h => ⟨rfl, h, rfl⟩, .refl _ s⟩

theorem State.LineTouch.trans (h : s.LineTouch t) (k : t.LineTouch u) : s.LineTouch u := by
  obtain ⟨es, gs, p, cs, ns, l, g, d, hf⟩ := h.frame
  obtain ⟨es', gs', p', cs', ns', l', g', d', kf⟩ := k.frame
  refine ⟨⟨es', gs', p', cs', ns', l', g', d', by rw [kf, hf]⟩, fun e => (k.entry e).trans (h.entry e), fun e he => ?_,
    h.only.trans k.only⟩
  obtain ⟨h1, h2, h3⟩ := h.unguarded e he
  obtain ⟨k1, k2, k3⟩ := k.unguarded e h2
  exact ⟨k1.trans h1, k2, k3.trans h3⟩

theorem State.occurLine_touch (s : State) (p : Port) : s.LineTouch (s.occur (lineCond p)) := by
  obtain ⟨cs, ns, l, h⟩ := s.occur_touches (lineCond p)
  have same := s.occur_sameMap (lineCond p)
  refine ⟨⟨_, _, _, cs, ns, _, _, _, h⟩, fun e => by rw [same.egresses], fun e he => ?_, (s.occurLine_control p).2⟩
  rw [same.egresses, same.guards, same.pool]
  exact ⟨rfl, he, rfl⟩

theorem State.groupTo_touch (s : State) (m : Membership) : s.LineTouch (s.groupTo m) := by
  refine ⟨?_, fun e => ?_, fun e he => ?_, (s.groupTo_control m).2⟩
  · unfold State.groupTo
    split <;> exact ⟨_, _, _, _, _, _, _, _, rfl⟩
  · rw [(s.groupTo_sameMap m).egresses]
  · rw [(s.groupTo_sameMap m).egresses, (s.groupTo_sameMap m).guards, (s.groupTo_sameMap m).pool]
    exact ⟨rfl, he, rfl⟩

theorem State.groupLineEvent_touch (s : State) : s.LineTouch s.groupLineEvent := by
  unfold State.groupLineEvent
  split
  · exact .refl s
  · split
    · split
      · exact s.groupTo_touch _
      · exact .refl s
    · split
      · exact .refl s
      · exact s.groupTo_touch _
    all_goals exact .refl s

/-- What a guard that is there does is its own egress's. -/
theorem State.LineTouch.of_guard {e : Port} {r : Guard} (h : s.LineTouch t) (he : s.guards[e] = some r)
    (hr : t.GuardReach u) (ho : State.OnlyAt e t u) : s.LineTouch u := by
  obtain ⟨⟨es, gs, p, cs, ns, l, d, hu⟩, hn⟩ := hr
  obtain ⟨_, _, _, _, _, _, g, _, hf⟩ := h.frame
  refine ⟨⟨es, gs, p, cs, ns, _, g, d, by rw [hu, hf]⟩, fun j => ?_, fun j hj => ?_,
    h.only.trans (hn.mono linesOccurred_of_guards)⟩
  · by_cases hje : j = e
    · rw [hje, ho.entry, h.entry]
    · rw [ho.egresses j hje, h.entry]
  · have hje : j ≠ e := fun hje => by
      rw [hje, he] at hj
      cases hj
    obtain ⟨h1, h2, h3⟩ := h.unguarded j hj
    exact ⟨(ho.egresses j hje).trans h1, (ho.guards j hje).trans h2, (ho.views j hje).trans h3⟩

/-- Only a guard record hears a line (R51). -/
theorem State.guardLineParts_none {e : Port} (p : Port) (old new : LineState) (h : s.guards[e] = none) :
    s.guardLineParts e p old new = [] := by
  have hears : s.guardHears e p old new = none := by
    unfold State.guardHears
    rw [h]
  unfold State.guardLineParts
  rw [hears]

theorem State.lineParts_touch (p : Port) (old new : LineState) :
    ∀ b ∈ s.lineParts p old new, ∀ f ∈ b, ∀ t : State, s.LineTouch t → s.LineTouch (f t) := by
  intro b hb f hf t ht
  rcases List.mem_append.mp hb with hb | hb
  · rcases List.mem_append.mp hb with hb | hb
    · split at hb
      · rw [List.mem_singleton.mp hb] at hf
        rw [List.mem_singleton.mp hf]
        exact ht.trans (t.occurLine_touch p)
      · exact absurd hb List.not_mem_nil
    · split at hb
      · rw [List.mem_singleton.mp hb] at hf
        rw [List.mem_singleton.mp hf]
        exact ht.trans t.groupLineEvent_touch
      · exact absurd hb List.not_mem_nil
  · obtain ⟨e, _, hb⟩ := List.mem_flatMap.mp hb
    cases he : s.guards[e] with
    | none =>
      rw [State.guardLineParts_none p old new he] at hb
      exact absurd hb List.not_mem_nil
    | some r =>
      unfold State.guardLineParts at hb
      split at hb
      · exact absurd hb List.not_mem_nil
      · exact ht.of_guard he (s.guardEventParts_reach e _ b hb f hf t) (s.guardEventParts_onlyAt e _ b hb f hf t)

theorem State.announceLine_touch (s : State) (p : Port) (old : LineState) : s.LineTouch (s.announceLine p old) := by
  unfold State.announceLine
  dsimp only
  split
  · exact .refl s
  · exact State.together_keeps s.LineTouch
      (fun t n h => h.trans
        ⟨⟨_, _, _, _, _, _, _, n, rfl⟩, fun _ => rfl, fun _ he => ⟨rfl, he, rfl⟩, (t.setDraws_control n).2⟩)
      s _ (State.lineParts_touch p _ _) (.refl s)

/-- Putting an ingress in a new state reaches what its line event does (R8). -/
theorem State.putIngress_lineReach (s : State) (p : Port) (g : Ingress) : s.LineReach (s.putIngress p g) p := by
  have hports : (s.putIngress p g).ports = (s.setPort p g).ports := (s.setPort p g).announceLine_ports p _
  obtain ⟨⟨es, gs, pl, cs, ns, l, gr, d, hf⟩, hentry, hun, hn⟩ := (s.setPort p g).announceLine_touch p s.ports[p].line
  replace hf : s.putIngress p g = _ := hf
  refine ⟨?_, fun q hq => ?_, hentry, hun, (State.NoticesOnly.of_eq rfl rfl rfl fun _ _ => rfl).trans hn⟩
  · rw [hf]
    rfl
  · rw [hports]
    exact setPort_other s p g q hq

/-- What comes of an ingress put in a new state: that state, and its line announced (R8). -/
theorem State.putIngress_announced (s : State) (p : Port) (g : Ingress) : (s.putIngress p g).ports[p] = g
    ∧ s.LineReach (s.putIngress p g) p ∧ s.LineHeard (s.putIngress p g) p := by
  refine ⟨?_, s.putIngress_lineReach p g, s.putIngress_heard p g⟩
  have hports : (s.putIngress p g).ports = (s.setPort p g).ports := (s.setPort p g).announceLine_ports p _
  rw [hports]
  exact setPort_same s p g

end

end Sys2Proof.Machine
end

section
/-! The events of signal detect, of the noise window and of the traffic timer (R1, R4 to R8). -/

namespace Sys2Proof.Machine

section
variable {s : State} {p : Port}

/-! ### Signal detect (R1) -/

theorem execSdDeassert_run (hp : s.phase = .run) (h : s.ports[p].sd = true) : exec (.sdDeassert p) s
    = .next (s.setPort p { s.ports[p] with sd := false, sdLoss := some 100 }).arbitrate := by
  show execSdDeassert p s = _
  unfold execSdDeassert
  rw [hp]
  exact congrArg Host.Outcome.next (s.event_taken _ _ hp h)

theorem execSdAssert_run (hp : s.phase = .run) (h : s.ports[p].sd = false) :
    exec (.sdAssert p) s = .next (s.putIngress p s.ports[p].sdAsserted).arbitrate := by
  show execSdAssert p s = _
  unfold execSdAssert
  rw [hp]
  exact congrArg Host.Outcome.next (s.event_taken _ _ hp (by rw [h]; rfl))

theorem execSdLossTimerExpiry_run (hp : s.phase = .run) (h : s.ports[p].sdLoss.isSome) :
    exec (.sdLossTimerExpiry p) s
      = .next (s.putIngress p { s.ports[p].lose .dark with sdLoss := none }).arbitrate :=
  congrArg Host.Outcome.next (s.event_taken _ _ hp h)

/-! ### The receivers of a line event (R8) -/

/-- Where no guard and no group plan hears it, the loss of a fit line is the condition unit's alone (R8, R140). -/
theorem State.lineParts_alone (hg : ∀ e : Port, s.guards[e] = none) (hr : s.group.plan = none)
    {old new : LineState} (ho : old.fit = true) (hn : new.fit = false) :
    s.lineParts p old new = [[(State.occur · (lineCond p))]] := by
  have hl : latchesLine old new = true := by simp [latchesLine, ho, hn]
  have hw : s.group.watches p = false := by simp [Group.watches, hr]
  have hguards : (allPorts.flatMap fun e => s.guardLineParts e p old new) = [] :=
    List.flatMap_eq_nil_iff.mpr fun e _ => s.guardLineParts_none p old new (hg e)
  unfold State.lineParts
  rw [hl, hw, hguards]
  rfl

theorem State.putIngress_alone (hg : ∀ e : Port, s.guards[e] = none) (hr : s.group.plan = none) {g : Ingress}
    (ho : s.ports[p].line.fit = true) (hn : g.line.fit = false) :
    s.putIngress p g = (s.setPort p g).occur (lineCond p) := by
  have hne : s.ports[p].line ≠ g.line := fun h => by
    rw [h, hn] at ho
    cases ho
  unfold State.putIngress State.announceLine
  dsimp only
  rw [setPort_same, if_neg hne, State.lineParts_alone (s := s.setPort p g) hg hr ho hn]
  rfl

theorem State.announceLine_same (old : LineState) (h : old = s.ports[p].line) : s.announceLine p old = s := if_pos h

theorem State.announceLine_together (old : LineState) (h : old ≠ s.ports[p].line) :
    s.Together (s.lineParts p old s.ports[p].line) (s.announceLine p old) := by
  unfold State.announceLine
  dsimp only
  rw [if_neg h]
  exact s.together_order _

theorem latchesLine_iff (old new : LineState) : latchesLine old new = true ↔ old.fit = true ∧ new.fit = false := by
  simp [latchesLine]

theorem Group.watches_iff (g : Group) (p : Port) :
    g.watches p = true ↔ ∃ r, g.plan = some r ∧ r.ready = .sourcesFit ∧ p ∈ r.sources := by
  unfold Group.watches
  cases g.plan <;> simp

theorem State.lineParts_eq (old new : LineState) : s.lineParts p old new
    = (if latchesLine old new then [[(State.occur · (lineCond p))]] else [])
      ++ (if s.group.watches p then [[State.groupLineEvent]] else [])
      ++ allPorts.flatMap fun e =>
          match s.guardHears e p old new with
          | none => []
          | some ev => s.guardEventParts e ev := rfl

theorem LineState.fit_iff (l : LineState) : l.fit = true ↔ l = .quiet ∨ l = .carry := by
  cases l <;> simp [LineState.fit]

/-! ### The noise window and the traffic timer (R4 to R7) -/

theorem execNoiseWindowEnd_run (hp : s.phase = .run) {w : Window} (hw : s.ports[p].window = some w) :
    exec (.noiseWindowEnd p) s = .next (s.putIngress p (s.ports[p].endWindow w.count)).arbitrate := by
  refine congrArg Host.Outcome.next ((s.event_taken _ _ hp (by rw [hw]; rfl)).trans ?_)
  rw [hw]

theorem execTrafficTimerExpiry_run (hp : s.phase = .run) (h : s.ports[p].traffic.isSome) :
    exec (.trafficTimerExpiry p) s = .next (s.putIngress p s.ports[p].trafficExpired).arbitrate :=
  congrArg Host.Outcome.next (s.event_taken _ _ hp h)

section
variable {g : Ingress} {n : Nat}

/-- The end of a window reaches the line state, its quiet windows, and the counts of windows. -/
theorem Ingress.endWindow_frame (h : g.line.delivering = true) : g.endWindow n = { g with
    lastWindow := n, window := some { pos := 0, count := 0 }
    line := (g.endWindow n).line, quietWindows := (g.endWindow n).quietWindows } := by
  unfold Ingress.endWindow
  dsimp only
  split
  · split
    · rfl
    · split <;> rfl
  · split <;> rfl
  · split <;> rfl
  · rename_i hl
    rw [hl] at h
    cases h
  · rename_i hl
    rw [hl] at h
    cases h

/-- A loud window makes the line NOISY, or keeps it so (R5, R6). -/
theorem Ingress.endWindow_loud (h : g.line.delivering = true) (hn : g.threshold.toNat ≤ n) :
    (g.endWindow n).line = .noisy ∧ (g.endWindow n).quietWindows = 0 := by
  unfold Ingress.endWindow
  cases hl : g.line
  case dark => rw [hl] at h; cases h
  case hunt => rw [hl] at h; cases h
  all_goals simp [hn]

theorem Ingress.endWindow_quiet (h : g.line.delivering = true) (hn : ¬ g.threshold.toNat ≤ n) (hl : g.line ≠ .noisy) :
    (g.endWindow n).line = g.line ∧ (g.endWindow n).quietWindows = g.quietWindows := by
  unfold Ingress.endWindow
  cases hline : g.line
  case dark => rw [hline] at h; cases h
  case hunt => rw [hline] at h; cases h
  case noisy => exact absurd hline hl
  all_goals simp [hn]

theorem Ingress.endWindow_counts (hn : ¬ g.threshold.toNat ≤ n) (hl : g.line = .noisy) (hq : g.quietWindows ≠ 3) :
    (g.endWindow n).line = .noisy ∧ (g.endWindow n).quietWindows = g.quietWindows + 1 := by
  unfold Ingress.endWindow
  simp [hn, hl, hq]

/-- The fourth quiet window in a row leaves NOISY (R7). -/
theorem Ingress.endWindow_leaves (hn : ¬ g.threshold.toNat ≤ n) (hl : g.line = .noisy) (hq : g.quietWindows = 3) :
    (g.endWindow n).line = (if g.traffic.isSome then .carry else .quiet) ∧ (g.endWindow n).quietWindows = 0 := by
  unfold Ingress.endWindow
  simp [hn, hl, hq]

end

end

/-- Settles O18: each event puts the ingress in its new state, and what hears of it is what announceLine does. -/
theorem signalDetectMovesTheLine : Obligations.SignalDetectMovesTheLine := by
  refine fun s p hp => ⟨execSdDeassert_run hp, fun h => ?_, fun h => ?_,
    fun old => ⟨s.announceLine_same old, s.announceLine_together old⟩, fun old new c hc => ?_, LineState.fit_iff⟩
  · obtain ⟨hport, hreach, hheard⟩ := s.putIngress_announced p s.ports[p].sdAsserted
    refine ⟨_, execSdAssert_run hp h, ?_⟩
    rw [hport]
    exact ⟨rfl, rfl, rfl, rfl, rfl, rfl, hreach, hheard⟩
  · obtain ⟨hport, hreach, hheard⟩ := s.putIngress_announced p { s.ports[p].lose .dark with sdLoss := none }
    refine ⟨_, execSdLossTimerExpiry_run hp h, ?_⟩
    rw [hport, Ingress.lose_eq]
    rw [Ingress.lose_eq] at hreach hheard
    refine ⟨rfl, rfl, rfl, rfl, rfl, rfl, rfl, rfl, rfl, rfl, rfl, rfl, hreach, hheard, fun hf hg hr => ?_⟩
    rw [State.putIngress_alone hg hr hf rfl]
    refine ⟨fun c hc => ?_, (State.NoticesOnly.of_eq rfl rfl rfl fun _ _ => rfl).trans (State.occur_only _ _ _ rfl)⟩
    rw [show c = lineCond p from Fin.ext hc]
    exact State.occur_same _ _
  · rw [show c = lineCond p from Fin.ext hc]
    exact ⟨latchesLine old new, s.group.watches p, latchesLine_iff old new, s.group.watches_iff p,
      s.lineParts_eq old new⟩

/-- Settles O23: the end of a window by its count and the line, and the traffic timer. -/
theorem noiseWindowAndTrafficTimer : Obligations.NoiseWindowAndTrafficTimer := by
  refine fun s p hp => ⟨fun w hw hd => ?_, fun h => ?_⟩
  · obtain ⟨hport, hreach, hheard⟩ := s.putIngress_announced p (s.ports[p].endWindow w.count)
    have hf := Ingress.endWindow_frame (n := w.count) hd
    refine ⟨_, execNoiseWindowEnd_run hp hw, ?_⟩
    rw [hport]
    exact ⟨hf, Ingress.endWindow_loud hd, Ingress.endWindow_quiet hd, Ingress.endWindow_counts,
      Ingress.endWindow_leaves, by rw [hf], by rw [hf], by rw [hf], by rw [hf], by rw [hf], hreach, hheard⟩
  · obtain ⟨hport, hreach, hheard⟩ := s.putIngress_announced p s.ports[p].trafficExpired
    exact ⟨_, execTrafficTimerExpiry_run hp h, hport, hreach, hheard⟩

end Sys2Proof.Machine
end

section
/-! CHARACTER_RECEIVED (R2, R3, R10, R12, R13). -/

namespace Sys2Proof.Machine

/-! ### An OPEN with no terminator after it (R13) -/

/-- An OPEN stands in the buffer, and no SHUT or ABORT after it. -/
def OpenStands (buffer : List BufItem) : Prop :=
  ∃ before after, buffer = before ++ .char .opn :: after ∧ .char .shut ∉ after ∧ .char .abort ∉ after

theorem openStands_nil : ¬ OpenStands [] := by
  rintro ⟨before, after, h, -⟩
  simp at h

theorem openStands_append (l : List BufItem) (b : BufItem) : OpenStands (l ++ [b])
    ↔ b = .char .opn ∨ b ≠ .char .shut ∧ b ≠ .char .abort ∧ OpenStands l := by
  constructor
  · rintro ⟨before, after, h, hs, ha⟩
    rcases List.eq_nil_or_concat' after with rfl | ⟨after, x, rfl⟩
    · exact .inl (List.append_inj_right' h rfl |> List.singleton_inj.mp)
    · rw [← List.cons_append, ← List.append_assoc] at h
      obtain ⟨rfl, hx⟩ := List.append_inj' h rfl
      obtain rfl := List.singleton_inj.mp hx
      simp only [List.mem_append, List.mem_singleton, not_or] at hs ha
      exact .inr ⟨Ne.symm hs.2, Ne.symm ha.2, before, after, rfl, hs.1, ha.1⟩
  · rintro (rfl | ⟨hs, ha, before, after, rfl, hs', ha'⟩)
    · exact ⟨l, [], rfl, List.not_mem_nil, List.not_mem_nil⟩
    · exact ⟨before, after ++ [b], by simp, by simp [hs', Ne.symm hs], by simp [ha', Ne.symm ha]⟩

theorem frameOpenIn_append (l : List BufItem) (b : BufItem) : frameOpenIn (l ++ [b]) = true
    ↔ b = .char .opn ∨ b ≠ .char .shut ∧ b ≠ .char .abort ∧ frameOpenIn l = true := by
  unfold frameOpenIn
  rw [List.foldl_append]
  simp only [List.foldl_cons, List.foldl_nil]
  split <;> simp

theorem frameOpenIn_iff (buffer : List BufItem) : frameOpenIn buffer = true ↔ OpenStands buffer := by
  induction buffer using List.reverseRecOn with
  | nil => simp [openStands_nil, frameOpenIn]
  | append_singleton l b ih => rw [frameOpenIn_append, openStands_append, ih]

/-! ### The search for an alignment (R2) -/

section
variable {g : Ingress} {c : Character}

theorem Ingress.search_violation (re : Bool) : g.search .violation re = { g with searchRun := 0 } := rfl

theorem Ingress.search_realigned (h : c ≠ .violation) : g.search c true = { g with searchRun := 1 } := by
  simp [Ingress.search, h]

theorem Ingress.search_lengthens (h : c ≠ .violation) (hr : g.searchRun ≠ 2) :
    g.search c false = { g with searchRun := g.searchRun + 1 } := by
  simp [Ingress.search, h, hr]

theorem Ingress.search_locks (h : c ≠ .violation) (hr : g.searchRun = 2) : g.search c false = g.lock := by
  simp [Ingress.search, h, hr]

/-! ### Writing a character (R10, R12, R13) -/

theorem Ingress.counted_level (g : Ingress) (c : Character) : (g.counted c).level = g.level := by
  rw [g.counted_frame c]
  rfl

/-- With space in the buffer the character is written at its tail, and priming ends at 16 (R10). -/
theorem Ingress.write_room (h : g.level < 32) : g.write c =
    { g with buffer := g.buffer ++ [.char c], priming := g.priming && decide (g.level + 1 < 16) } :=
  if_neg (Nat.ne_of_lt h)

theorem Ingress.write_full (h : g.level = 32) : g.write c = g.overflow c := if_pos h

/-- While INSIDE an overflow owes a slip (R12). -/
theorem Ingress.overflow_inside (h : g.tracker.isInside = true) : g.overflow c = { g with slipPending := true } :=
  if_pos h

/-- Else it leaves a mark for a dropped OPEN, or for what a frame in the buffer loses (R13). -/
theorem Ingress.overflow_between (h : g.tracker.isInside = false) : g.overflow c = { g with
    buffer := g.buffer ++ (if c = .opn then [.lostOpen] else if frameOpenIn g.buffer then [.slip] else []) } := by
  unfold Ingress.overflow
  rw [h]
  by_cases hc : c = .opn
  · simp [hc]
  · by_cases ho : frameOpenIn g.buffer = true <;> simp [hc, ho]

/-! ### The delivery of a character (R3) -/

theorem Ingress.receiveCharacter_delivering (re : Bool) (h : g.line.delivering = true) :
    g.receiveCharacter c re = g.deliver c := by
  unfold Ingress.receiveCharacter
  cases hl : g.line
  case dark => rw [hl] at h; cases h
  case hunt => rw [hl] at h; cases h
  all_goals rfl

theorem Ingress.receiveCharacter_dark (re : Bool) (h : g.line = .dark) : g.receiveCharacter c re = g := by
  unfold Ingress.receiveCharacter
  rw [h]

theorem Ingress.receiveCharacter_hunt (re : Bool) (h : g.line = .hunt) : g.receiveCharacter c re = g.search c re := by
  unfold Ingress.receiveCharacter
  rw [h]

/-- The fourth VIOLATION in a row is not written: the line is in HUNT (R3, R19). -/
theorem Ingress.deliver_fourth (h : g.violationRun = 3) : g.deliver .violation = { g with
    line := .hunt, searchRun := 0, violationRun := 0, window := none, quietWindows := 0
    traffic := none, buffer := [], priming := false, slipPending := false, tracker := .outside
    abortDue := g.abortDue || g.tracker.isInside
    counters :=
      if g.tracker.isInside then ((g.bump .violations).bump .framesCut).counters
      else (g.bump .violations).counters } := by
  rw [Ingress.deliver_eq, if_pos ⟨rfl, h⟩, Ingress.lose_eq]
  rfl

theorem Ingress.deliver_writes (h : c = .violation → g.violationRun ≠ 3) : g.deliver c = (g.counted c).write c := by
  rw [Ingress.deliver_eq, if_neg fun ⟨hc, hr⟩ => h hc hr]

theorem Ingress.deliver_room (h : c = .violation → g.violationRun ≠ 3) (hl : g.level < 32) : g.deliver c =
    { g.counted c with buffer := g.buffer ++ [.char c], priming := g.priming && decide (g.level + 1 < 16) } := by
  rw [Ingress.deliver_writes h, Ingress.write_room (by rw [Ingress.counted_level]; exact hl), Ingress.counted_level]
  rw [g.counted_frame c]

theorem Ingress.deliver_full (h : c = .violation → g.violationRun ≠ 3) (hl : g.level = 32) :
    g.deliver c = (g.counted c).overflow c := by
  rw [Ingress.deliver_writes h, Ingress.write_full (by rw [Ingress.counted_level]; exact hl)]

theorem LineState.delivering_iff (l : LineState) : l.delivering = true ↔ l = .quiet ∨ l = .carry ∨ l = .noisy := by
  cases l <;> simp [LineState.delivering]

end

/-- Settles O19: the line takes the character by its state, and what its line event reaches is the rest. -/
theorem characterReceivedByLineState : Obligations.CharacterReceivedByLineState := by
  refine ⟨frameOpenIn_iff, fun s p c re hp => ?_⟩
  obtain ⟨hport, hreach, hheard⟩ := s.putIngress_announced p (s.ports[p].receiveCharacter c re)
  refine ⟨_, congrArg Host.Outcome.next (s.event_taken _ _ hp rfl), hreach, hheard, ?_⟩
  rw [hport]
  generalize s.ports[p] = g
  have counted : (if c = .violation then
      { g.bump .violations with
        window := g.window.map fun w => { w with count := w.count + 1 }
        violationRun := g.violationRun + 1 }
    else { g with violationRun := 0 } : Ingress) = g.counted c := rfl
  dsimp only
  rw [counted]
  refine ⟨Ingress.receiveCharacter_dark re, fun h => ?_, fun h hc hv => ?_, fun h hv => ?_, rfl,
    LineState.delivering_iff _⟩
  · rw [Ingress.receiveCharacter_hunt re h]
    refine ⟨fun hc => ?_, fun hc hr => ?_, fun hc hr hn => ?_, fun hc hr hn => ?_⟩
    · rw [hc, Ingress.search_violation]
    · rw [hr, Ingress.search_realigned hc]
    · rw [hr, Ingress.search_lengthens hc hn]
    · rw [hr, Ingress.search_locks hc hn]
      rfl
  · rw [Ingress.receiveCharacter_delivering re h, hc, Ingress.deliver_fourth hv]
  · rw [Ingress.receiveCharacter_delivering re h]
    refine ⟨Ingress.deliver_room hv, fun hl => ?_⟩
    rw [Ingress.deliver_full hv hl]
    refine ⟨(Ingress.overflow_level _ c).trans ((g.counted_level c).trans hl), fun hi => ?_, fun hi => ?_⟩
    · rw [Ingress.overflow_inside (by rw [g.counted_frame c]; exact hi)]
    · rw [Ingress.overflow_between (by rw [g.counted_frame c]; exact hi)]
      rw [g.counted_frame c]

end Sys2Proof.Machine
end

section
/-! TRACKER_READ (R10 to R14, R19, R22, R81). -/

namespace Sys2Proof.Machine

/-! ### What the read side hands over (R10 to R13) -/

section
variable {g : Ingress}

/-- With no ABORT owed and a line that delivers, an owed slip goes before all else (R12). -/
theorem Ingress.nextItem_slip (ha : g.abortDue = false) (hd : g.line.delivering = true) (hs : g.slipPending = true) :
    g.nextItem = (.slip, g.buffer) := by
  unfold Ingress.nextItem
  simp [ha, hd, hs]

theorem Ingress.nextItem_priming (ha : g.abortDue = false) (hd : g.line.delivering = true)
    (hs : g.slipPending = false) (hp : g.priming = true) : g.nextItem = (.inserted, g.buffer) := by
  unfold Ingress.nextItem
  simp [ha, hd, hs, hp]

/-- The buffer is read from its head once it is primed. -/
structure Ingress.Reads (g : Ingress) : Prop where
  noAbort : g.abortDue = false
  delivers : g.line.delivering = true
  noSlip : g.slipPending = false
  primed : g.priming = false

section
variable (hr : g.Reads)
include hr

theorem Ingress.Reads.nextItem_eq : g.nextItem =
    match g.buffer with
    | .lostOpen :: rest => (.lostOpen, rest)
    | .slip :: rest => (.slipMark, rest)
    | [] => if g.tracker.isInside then (.slip, []) else (.inserted, [])
    | .char c :: rest =>
      if g.tracker.isInside then (.char c, rest)
      else readBetween (decide (g.tracker = .discard)) g.level c rest := by
  unfold Ingress.nextItem
  simp only [hr.noAbort, hr.delivers, hr.noSlip, hr.primed, Bool.false_eq_true, Bool.not_true, if_false] <;> rfl

theorem Ingress.Reads.lostOpen {rest : List BufItem} (hb : g.buffer = .lostOpen :: rest) :
    g.nextItem = (.lostOpen, rest) := by
  rw [hr.nextItem_eq, hb]

theorem Ingress.Reads.slipMark {rest : List BufItem} (hb : g.buffer = .slip :: rest) :
    g.nextItem = (.slipMark, rest) := by
  rw [hr.nextItem_eq, hb]

theorem Ingress.Reads.empty_inside (hb : g.buffer = []) (hi : g.tracker.isInside = true) :
    g.nextItem = (.slip, []) := by
  rw [hr.nextItem_eq, hb]
  exact if_pos hi

theorem Ingress.Reads.empty_between (hb : g.buffer = []) (hi : g.tracker.isInside = false) :
    g.nextItem = (.inserted, []) := by
  rw [hr.nextItem_eq, hb]
  exact if_neg (by rw [hi]; exact nofun)

theorem Ingress.Reads.char_inside {c : Character} {rest : List BufItem} (hb : g.buffer = .char c :: rest)
    (hi : g.tracker.isInside = true) : g.nextItem = (.char c, rest) := by
  rw [hr.nextItem_eq, hb]
  exact if_pos hi

theorem Ingress.Reads.char_between {c : Character} {rest : List BufItem} (hb : g.buffer = .char c :: rest)
    (hi : g.tracker.isInside = false) :
    g.nextItem = readBetween (decide (g.tracker = .discard)) g.level c rest := by
  rw [hr.nextItem_eq, hb]
  exact if_neg (by rw [hi]; exact nofun)

end

/-- Between frames a head may be deleted that is FILL, or in DISCARD anything but OPEN (R11). -/
theorem deletable_iff {c : Character} (hi : g.tracker.isInside = false) :
    deletable (decide (g.tracker = .discard)) c = true
      ↔ (g.tracker = .discard ∧ c ≠ .opn) ∨ (g.tracker = .outside ∧ c = .fill) := by
  unfold deletable
  cases ht : g.tracker with
  | inside n l q a =>
    rw [ht] at hi
    cases hi
  | outside => simp
  | discard => simp

section
variable {d : Bool} {n : Nat} {c : Character} {rest : List BufItem}

theorem readBetween_low (h : n < 12) : readBetween d n c rest = (.inserted, .char c :: rest) := if_pos h

theorem readBetween_reads (hl : 12 ≤ n) (h : n ≤ 20 ∨ ¬ deletable d c = true) :
    readBetween d n c rest = (.char c, rest) := by
  unfold readBetween
  rw [if_neg (Nat.not_lt.mpr hl), if_neg fun ⟨hn, hd⟩ => h.elim (fun h => absurd hn (Nat.not_lt.mpr h)) (· hd)]

/-- A head that may be deleted gives way to the character behind it (R11). -/
theorem readBetween_deletes (h : 20 < n) (hd : deletable d c = true) :
    (∀ x rest', rest = .char x :: rest' → readBetween d n c rest = (.char x, rest'))
      ∧ ((∀ x rest', rest ≠ .char x :: rest') → readBetween d n c rest = (.char c, rest)) := by
  unfold readBetween
  rw [if_neg (by omega), if_pos ⟨h, hd⟩]
  refine ⟨fun x rest' hr => by rw [hr], fun hr => ?_⟩
  split
  · exact absurd rfl (hr _ _)
  all_goals rfl

end

theorem Ingress.readSideHands (g : Ingress) : ReadSideHands g := by
  refine ⟨g.nextItem_abortDue, g.nextItem_idle, fun ha hd => ⟨g.nextItem_slip ha hd, g.nextItem_priming ha hd,
    fun hs hp => ?_⟩, ?_⟩
  · have hr : g.Reads := ⟨ha, hd, hs, hp⟩
    refine ⟨fun _ => hr.lostOpen, fun _ => hr.slipMark, hr.empty_inside, hr.empty_between, fun c rest hb => ?_⟩
    refine ⟨hr.char_inside hb, fun hi hl => ?_, fun hi hl hn => ?_, fun hi hl hn => ?_⟩
    · rw [hr.char_between hb hi, readBetween_low hl, hb]
    · rw [hr.char_between hb hi]
      exact readBetween_reads hl (hn.imp_right (mt (deletable_iff hi).mp))
    · rw [hr.char_between hb hi]
      exact readBetween_deletes hl ((deletable_iff hi).mpr hn)
  · exact congrArg (fun f => g.buffer.countP f) (funext fun b => by cases b <;> rfl)

theorem Ingress.readOncePasses (g : Ingress) (maxframe : Nat) : ReadOncePasses g maxframe := by
  refine ⟨?_, g.track_owedAbort maxframe, g.track_idle maxframe⟩
  have hs : (g.slipPending && decide (g.nextItem.1 ≠ .slip))
      = if g.nextItem.1 = .slip then false else g.slipPending := by
    by_cases h : g.nextItem.1 = .slip <;> simp [h]
  rw [g.readOnce_eq]
  unfold Ingress.handing
  rw [hs]

/-! ### A good frame (R4, R22) -/

theorem Ingress.patternCheck_normal (m n : Nat) (seq : Half) (ok : Bool) (h : g.mode = .normal) :
    g.patternCheck m n seq ok = g := by
  unfold Ingress.patternCheck
  rw [h]

/-- A good frame reaches the line state and the traffic timer (R4). -/
theorem Ingress.goodFrame_frame (g : Ingress) :
    g.goodFrame = { g with line := g.goodFrame.line, traffic := g.goodFrame.traffic } := by
  unfold Ingress.goodFrame
  split <;> rfl

theorem Ingress.goodFrame_delivering (h : g.line.delivering = true) :
    g.goodFrame.traffic = some 10000000 ∧ g.goodFrame.line = if g.line = .quiet then .carry else g.line := by
  unfold Ingress.goodFrame
  rw [if_pos h]
  exact ⟨rfl, rfl⟩

/-- A read leaves in the clean stream what it emitted (R14). -/
theorem Ingress.readOnce_clean (g : Ingress) (maxframe : Nat) :
    (g.readOnce maxframe).after.clean = (g.readOnce maxframe).emitted
      ∧ (g.readOnce maxframe).after.cleanInside = (g.readOnce maxframe).inside := ⟨rfl, rfl⟩

end

/-! ### MARK events (R81) -/

section
variable {s t : State}

theorem State.marksTaken (s : State) : MarksTaken s := by
  obtain ⟨l, draws, hl, heq⟩ :=
    s.inSomeOrder_order (allPorts.filter fun p => s.ports[p].markDue) fun p t => t.takeMark p
  refine ⟨l, draws, hl.nodup_iff.mpr ((List.nodup_finRange 16).filter _), fun q => ?_, heq⟩
  rw [hl.mem_iff]
  simp [allPorts]

theorem State.readsOver_iff : s.readsOver = true ↔ ∀ q : Port, s.ports[q].readDue = false := by
  unfold State.readsOver allPorts
  rw [List.all_eq_true]
  exact ⟨fun h q => by simpa using h q (List.mem_finRange q), fun h q _ => by rw [h q]; rfl⟩

/-- The MARK events are taken with the last read of a character time (R81). -/
theorem State.afterRead_last (h : ∀ q : Port, s.ports[q].readDue = false) : s.afterRead = s.takeMarks :=
  if_pos (State.readsOver_iff.mpr h)

theorem State.afterRead_more (h : ∃ q : Port, s.ports[q].readDue = true) : s.afterRead = s := by
  obtain ⟨q, hq⟩ := h
  refine if_neg fun hr => ?_
  rw [State.readsOver_iff.mp hr q] at hq
  cases hq

/-! ### A source held back (R37, R38) -/

theorem Egress.not_closes_iff (g : Egress) (between : Source → Bool) (src : Source) : ¬ g.Closes between src
    ↔ (g.current = src → g.held = none)
      ∧ ¬ ∃ ch, g.state = .joining ∧ g.change = some ch ∧ ch.target = src ∧ between src = true := by
  unfold Egress.Closes
  rw [not_or, not_and, Bool.not_eq_true, Option.isSome_eq_false_iff, Option.isNone_iff_eq_none]
  refine and_congr_right fun _ => not_congr ⟨?_, ?_⟩
  · rintro ⟨hs, hb, ch, hc, ht⟩
    exact ⟨ch, hs, hc, ht, hb⟩
  · rintro ⟨ch, hs, hc, ht, hb⟩
    exact ⟨hs, hb, ch, hc, ht⟩

theorem Tracker.isInside_iff (t : Tracker) : t.isInside = true ↔ ∃ n limit seq ok, t = .inside n limit seq ok := by
  cases t <;> simp [Tracker.isInside]

/-! ### One read -/

/-- The state in which the character of one read has been offered (R14, R49). -/
def State.offered (s : State) (p : Port) : State :=
  (s.setPort p (s.ports[p].readOnce s.maxframe).after).offer (.ingress p) (s.ports[p].readOnce s.maxframe).emitted

theorem State.readTracker_none (p : Port) (h : (s.ports[p].readOnce s.maxframe).event = .none) :
    s.readTracker p = s.offered p := by
  unfold State.readTracker
  dsimp only
  rw [h]
  rfl

theorem State.readTracker_mark (p : Port) (h : (s.ports[p].readOnce s.maxframe).event = .mark) : s.readTracker p
    = (s.offered p).setPort p { (s.ports[p].readOnce s.maxframe).after with markDue := true } := by
  unfold State.readTracker
  dsimp only
  rw [h]
  rfl

theorem State.readTracker_goodFrame (p : Port) {n : Nat} {seq : Half} {ok : Bool}
    (h : (s.ports[p].readOnce s.maxframe).event = .goodFrame n seq ok) : s.readTracker p = (s.offered p).putIngress p
      ((s.ports[p].readOnce s.maxframe).after.patternCheck s.pattern.length n seq ok).goodFrame := by
  unfold State.readTracker
  dsimp only
  rw [h]
  rfl

theorem execTrackerRead_run (p : Port) (hp : s.phase = .run) (ho : s.sourceOpen (.ingress p) = true) :
    exec (.trackerRead p) s = .next ((s.beforeRead p).readTracker p).afterRead.arbitrate :=
  congrArg Host.Outcome.next (s.event_taken _ _ hp ho)

/-- How TRACKER_READ ends in the state `w` that its read leaves (R81). -/
theorem execTrackerRead_ends (p : Port) (hp : s.phase = .run) (ho : s.sourceOpen (.ingress p) = true) {w : State}
    (hw : (s.beforeRead p).readTracker p = w) :
    ((∃ q : Port, w.ports[q].readDue = true) → exec (.trackerRead p) s = .next w.arbitrate)
      ∧ ((∀ q : Port, w.ports[q].readDue = false) → exec (.trackerRead p) s = .next w.takeMarks.arbitrate) := by
  rw [execTrackerRead_run p hp ho, hw]
  exact ⟨fun h => by rw [State.afterRead_more h], fun h => by rw [State.afterRead_last h]⟩

end

/-- Settles O20: the read by the event that the tracker reports, and what the read side and the tracker give. -/
theorem trackerReadOffersOneCharacter : Obligations.TrackerReadOffersOneCharacter := by
  refine ⟨fun s src => ?_, fun s p hp ho => ?_, Tracker.isInside_iff, fun s p hp ho => ?_, State.marksTaken,
    Ingress.readSideHands, Ingress.readOncePasses⟩
  · rw [s.sourceOpen_iff]
    exact forall_congr' fun e => Egress.not_closes_iff _ _ src
  · exact congrArg Host.Outcome.next (s.event_not_offered _ _ ho)
  · intro v
    have ends {w : State} (hw : v.readTracker p = w) := execTrackerRead_ends p hp ho hw
    clear_value v
    refine ⟨fun e => ?_, fun h => ends (State.readTracker_none p h), fun h => ends (State.readTracker_mark p h),
      fun n seq ok h => ⟨_, ends (State.readTracker_goodFrame p h), ?_⟩⟩
    · exact offer_egress _ _ _ e
    · obtain ⟨hport, hreach, hheard⟩ := (v.offered p).putIngress_announced p
        ((v.ports[p].readOnce v.maxframe).after.patternCheck v.pattern.length n seq ok).goodFrame
      refine ⟨hreach, hheard, ?_⟩
      rw [hport]
      obtain ⟨hclean, hinside⟩ := v.ports[p].readOnce_clean v.maxframe
      rw [← hclean, ← hinside]
      generalize (v.ports[p].readOnce v.maxframe).after = g
      have hf := (g.patternCheck v.pattern.length n seq ok).goodFrame_frame
      have hc := g.patternCheck_frame v.pattern.length n seq ok
      refine ⟨by rw [hf, hc], by rw [hf, hc], by rw [hf], by rw [hf], by rw [hf, hc], by rw [hf, hc], fun hm => ?_,
        fun hd => ?_⟩
      · rw [hf, Ingress.patternCheck_normal _ _ _ _ hm]
      · have := Ingress.goodFrame_delivering (g := g.patternCheck v.pattern.length n seq ok) (by rw [hc]; exact hd)
        rwa [show (g.patternCheck v.pattern.length n seq ok).line = g.line by rw [hc]] at this

end Sys2Proof.Machine
end

section
/-! The guards' transitions (R51, R56 to R61). -/

namespace Sys2Proof.Machine

section
variable {s : State} {e : Port} {r : Guard} {f : GuardFields}

/-! ### Timers -/

theorem GuardFields.holdOffCt_eq (f : GuardFields) : f.holdOffCt = f.holdOff * 1000000 :=
  Nat.mul_assoc f.holdOff 10 100000

theorem State.inHoldoff_iff (hr : s.guards[e] = some r) : s.inHoldoff e = true ↔ ∃ left, r.state = .holdoff left := by
  unfold State.inHoldoff
  rw [hr]
  obtain ⟨ident, state, last⟩ := r
  cases state <;> simp

theorem State.inRestoreWait_iff (hr : s.guards[e] = some r) :
    s.inRestoreWait e = true ↔ ∃ left, r.state = .restoreWait left := by
  unfold State.inRestoreWait
  rw [hr]
  obtain ⟨ident, state, last⟩ := r
  cases state <;> simp

theorem execHoldOffExpiry_run (hp : s.phase = .run) (hf : s.egresses[e].entry.guard = some f)
    (hs : s.inHoldoff e = true) :
    exec (.holdOffExpiry e) s = .next (s.guardMoves e (s.holdOffMove f)).arbitrate := by
  refine congrArg Host.Outcome.next ((s.event_taken _ _ hp hs).trans ?_)
  rw [hf]
  rfl

theorem State.holdOffMove_well (h : s.standbyWell f = true) : s.holdOffMove f = .switch .standby .onStandby := if_pos h

theorem State.holdOffMove_unwell (h : s.standbyWell f = false) : s.holdOffMove f = .to .primaryDown :=
  if_neg (by rw [h]; exact nofun)

theorem guardTimerExpiries (hr : s.guards[e] = some r) (hf : s.egresses[e].entry.guard = some f)
    (hp : s.phase = .run) : GuardTimerExpiries s e r f := by
  refine ⟨fun left hs hw => ?_, fun left hs hw => ?_, fun left hs => ?_, fun hs => ?_, fun hs => ?_⟩
  · rw [execHoldOffExpiry_run hp hf ((State.inHoldoff_iff hr).mpr ⟨left, hs⟩), State.holdOffMove_well hw]
    rfl
  · rw [execHoldOffExpiry_run hp hf ((State.inHoldoff_iff hr).mpr ⟨left, hs⟩), State.holdOffMove_unwell hw,
      s.guardMoves_to e _ r f hr hf]
  · exact congrArg Host.Outcome.next (s.event_taken _ _ hp ((State.inRestoreWait_iff hr).mpr ⟨left, hs⟩))
  · refine congrArg Host.Outcome.next (s.event_not_offered _ _ (Bool.eq_false_iff.mpr fun h => ?_))
    obtain ⟨left, h⟩ := (State.inHoldoff_iff hr).mp h
    exact hs left h
  · refine congrArg Host.Outcome.next (s.event_not_offered _ _ (Bool.eq_false_iff.mpr fun h => ?_))
    obtain ⟨left, h⟩ := (State.inRestoreWait_iff hr).mp h
    exact hs left h

/-! ### Line events -/

theorem State.guardEventParts_some (hr : s.guards[e] = some r) (hf : s.egresses[e].entry.guard = some f)
    (ev : GuardEvent) : s.guardEventParts e ev = s.guardParts e (s.eventMove e f r.state ev) := by
  unfold State.guardEventParts
  rw [hr, hf]

theorem State.failMove_later (h : f.holdOff ≠ 0) : s.failMove f = .to (.holdoff (f.holdOff * 1000000)) := by
  unfold State.failMove
  rw [f.holdOffCt_eq]
  exact if_neg (by omega)

/-- A hold-off of 0 expires at once (R56). -/
theorem State.failMove_now (h : f.holdOff = 0) : s.failMove f = s.holdOffMove f := by
  unfold State.failMove
  rw [f.holdOffCt_eq, h]
  exact if_pos rfl

theorem LineState.well_fit (l : LineState) : l.well false = true ↔ l = .quiet ∨ l = .carry := l.fit_iff

theorem LineState.well_carrying (l : LineState) : l.well true = true ↔ l = .carry := by
  cases l <;> simp [LineState.well, LineState.carrying]

theorem standbyEvaluation_moves (s : State) (e : Port) (f : GuardFields) : StandbyEvaluation s e f := by
  refine ⟨fun hp hs => ?_, fun sec hp hs hr => ?_, fun hp hs hr => ?_, fun hp => ?_, rfl⟩ <;>
    unfold State.evaluationMove
  · simp [hp, hs]
  · simp [hp, hs, hr, Restore.waitCt, Config.ctPerS]
  · simp [hr, hs]
  · cases f.restore <;> simp [hp]

theorem guardHearing (hr : s.guards[e] = some r) (hf : s.egresses[e].entry.guard = some f) : GuardHearing s e f := by
  refine ⟨fun p old new => ?_, fun l => ⟨l.well_fit, l.well_carrying⟩⟩
  have hears : s.guardHears e p old new =
      if old.well f.requireTraffic = new.well f.requireTraffic then none
      else if s.egresses[e].entry.source = .ingress p then
        some (if new.well f.requireTraffic then .primaryRecovers else .primaryFails)
      else if f.standby = p then some (if new.well f.requireTraffic then .standbyRecovers else .standbyFails)
      else none := by
    unfold State.guardHears
    rw [hr, hf]
  rw [hears]
  refine ⟨fun h => if_pos h, fun hp hw hn => ?_, fun hp hw hn => ?_, fun hp hs hw hn => ?_, fun hp hs hw hn => ?_,
    fun hp hs => ?_⟩
  · rw [hw, hn, if_neg nofun, if_pos hp]
    rfl
  · rw [hw, hn, if_neg nofun, if_pos hp]
    rfl
  · rw [hw, hn, if_neg nofun, if_neg hp, if_pos hs]
    rfl
  · rw [hw, hn, if_neg nofun, if_neg hp, if_pos hs]
    rfl
  · rw [if_neg hp, if_neg hs, ite_self]

end

/-- Settles O37: each state of the guard against each event, as eventMove has it. -/
theorem guardTransitionTable : Obligations.GuardTransitionTable := by
  intro s e r f hr hf
  refine ⟨guardTimerExpiries hr hf, fun ev => ⟨State.guardEventParts_some hr hf ev, s.guardEvent_moves e ev r f hr hf⟩,
    fun h => ?_, fun left h => ?_, fun h => ?_, fun h => ?_, fun left h => ?_, fun h ev => ?_,
    standbyEvaluation_moves s e f, fun p h => ?_, rfl, guardHearing hr hf⟩
  · rw [h]
    exact ⟨State.failMove_later, fun h0 hw => (State.failMove_now h0).trans (State.holdOffMove_well hw),
      fun h0 hw => (State.failMove_now h0).trans (State.holdOffMove_unwell hw), rfl, rfl, rfl⟩
  · rw [h]
    exact ⟨rfl, rfl, rfl, rfl⟩
  · rw [h]
    exact ⟨rfl, rfl, rfl, rfl⟩
  · rw [h]
    exact ⟨rfl, fun hw => if_pos hw, fun hw => if_neg (by rw [hw]; exact nofun), rfl, rfl⟩
  · rw [h]
    exact ⟨rfl, rfl, rfl, rfl⟩
  · rcases h with h | h | h | ⟨sel, o, h⟩ <;> rw [h] <;> rfl
  · unfold State.primaryWell
    rw [h]

end Sys2Proof.Machine
end

section
/-! The end of a reset (R168). -/

namespace Sys2Proof.Machine

/-- The part as a reset ends, HELLO queued and nothing sent yet (R168). -/
def State.helloQueued (s : State) (cause : ResetCause) (straps : Straps) : State :=
  { s.blocksReset .run with
    group := Group.afterReset s.group.high
    senses := s.senses.map fun k : Sense => Sense.afterReset k.level
    strapPins := straps
    straps := straps
    notices := NoticeQueue.afterReset.offer 0 (.hello cause straps) }

section
variable (s : State) (cause : ResetCause) (straps : Straps)

theorem State.endReset_eq : s.endReset cause straps = (s.helloQueued cause straps).arbitrate := rfl

theorem State.helloQueued_entries :
    (s.helloQueued cause straps).notices.entries = [{ number := 0, time := 0, body := .hello cause straps }]
      ∧ (s.helloQueued cause straps).notices.next = 1 := by
  have h := NoticeQueue.afterReset.offer_room 0 (.hello cause straps) (by decide)
  have hq : (s.helloQueued cause straps).notices = NoticeQueue.afterReset.offer 0 (.hello cause straps) := rfl
  rw [hq, h]
  exact ⟨rfl, rfl⟩

/-- The arbiter sends HELLO, and then MTX is busy (R166). -/
theorem State.helloQueued_sent : (s.helloQueued cause straps).arbitrate.link.mtx.isSome := by
  rw [State.arbitrate_notice _ _ [] rfl rfl rfl rfl (s.helloQueued_entries cause straps).1]
  rfl

theorem State.endReset_arbitrate : (s.endReset cause straps).arbitrate = (s.helloQueued cause straps).arbitrate := by
  rw [State.endReset_eq, State.arbitrate_busy _ (s.helloQueued_sent cause straps)]

theorem Ingress.afterReset_line (sd : Bool) : (Ingress.afterReset sd).line = if sd then .hunt else .dark := rfl

/-- Every block is as after reset, by the levels of the inputs (R168). -/
theorem State.helloQueued_blocks {sd : Port → Bool} {sense : SenseId → Bool} (hsd : ∀ p : Port, s.ports[p].sd = sd p)
    (hsense : ∀ n : SenseId, s.senses[n].level = sense n) :
    HelloQueued (s.helloQueued cause straps) cause straps sd sense s.group.high := by
  obtain ⟨hentries, hnext⟩ := s.helloQueued_entries cause straps
  refine ⟨rfl, rfl, rfl, rfl, hentries, hnext, rfl, fun p => ?_, fun n => ?_, rfl,
    fun e => ⟨blocksReset_egress s .run e, Vector.getElem_replicate e.isLt, Vector.getElem_replicate e.isLt⟩,
    fun k => Vector.getElem_replicate k.isLt, rfl, rfl, fun c => Vector.getElem_replicate c.isLt⟩
  · have hp : (s.helloQueued cause straps).ports[p] = Ingress.afterReset (sd p) := by
      rw [← hsd p]
      exact blocksReset_port s .run p
    rw [hp]
    exact ⟨rfl, Ingress.afterReset_line _⟩
  · have hn : (s.helloQueued cause straps).senses[n] = Sense.afterReset s.senses[n].level :=
      Vector.getElem_map _ n.isLt
    rw [hn, hsense n]
    rfl

end

section
variable {s : State}

theorem execHardwareResetEnd_ends {cause : HardwareCause} (i : Inputs) (h : s.phase = .hardwareReset cause) :
    exec (.hardwareResetEnd i) s
      = .next ((s.readInputs i).helloQueued (reportedCause cause) i.straps).arbitrate := by
  show execHardwareResetEnd i s = _
  unfold execHardwareResetEnd
  rw [h]
  exact congrArg Host.Outcome.next (State.endReset_arbitrate _ _ _)

theorem execRestartEnd_ends {left : Nat} (straps : Straps) (h : s.phase = .restart left) :
    exec (.restartEnd straps) s = .next (s.helloQueued .request straps).arbitrate := by
  show execRestartEnd straps s = _
  unfold execRestartEnd
  rw [h]
  exact congrArg Host.Outcome.next (State.endReset_arbitrate _ _ _)

theorem readInputs_sd (i : Inputs) (p : Port) : (s.readInputs i).ports[p].sd = i.sd.getLsbD p.val :=
  congrArg Ingress.sd (Vector.getElem_ofFn p.isLt)

theorem readInputs_level (i : Inputs) (n : SenseId) : (s.readInputs i).senses[n].level = i.sense.getLsbD n.val :=
  congrArg Sense.level (Vector.getElem_ofFn n.isLt)

end

/-- State.reset is what a power-on reset with every input low ends in, HELLO on MTX. -/
theorem reset_is_powerOn :
    (({ State.reset with phase := .hardwareReset .power }.readInputs
        { straps := { lrate := 0, tepHigh := false }, sd := 0, sense := 0, grdyHigh := false }).endReset .power
      { lrate := 0, tepHigh := false }).arbitrate = State.reset := by decide +kernel

/-- Settles O5: both resets end in HELLO queued, which the arbiter sends. -/
theorem resetEndQueuesHello : Obligations.ResetEndQueuesHello := by
  refine ⟨fun i cause s h => ⟨_, execHardwareResetEnd_ends i h, ?_⟩,
    fun straps left s h => ⟨_, execRestartEnd_ends straps h, ?_⟩, by decide,
    congrArg Host.Outcome.next reset_is_powerOn⟩
  · have hq := State.helloQueued_blocks (s.readInputs i) (reportedCause cause) i.straps (readInputs_sd i)
      (readInputs_level i)
    cases cause <;> exact hq
  · exact State.helloQueued_blocks s .request straps (fun _ => rfl) fun _ => rfl

end Sys2Proof.Machine
end

section
/-! The part's own events that are due (R163; log entries 2 and 5). -/

namespace Sys2Proof.Machine

section
variable {s : State} {c : Instr}

/-! ### Frame starts, frame ends and reads -/

theorem State.joinReady_iff (s : State) (e : Port) : s.joinReady e = true ↔ JoinDue s e := by
  unfold State.joinReady JoinDue
  rw [Bool.and_eq_true, decide_eq_true_eq, Option.any_eq_true]

theorem State.frameStart_iff (s : State) (e : Port) :
    (s.pool.views[e].startDue && s.frameMayStart e) = true ↔ FrameStartDue s e := Bool.and_eq_true_iff

theorem State.shutReady_iff (s : State) (e : Port) : s.shutReady e = true ↔ FrameEndDue s e := by
  unfold State.shutReady FrameEndDue
  rw [Bool.and_eq_true, Bool.and_eq_true, Bool.or_eq_true, decide_eq_true_eq, decide_eq_true_eq, decide_eq_true_eq,
    Option.any_eq_true, and_assoc]

theorem State.framesSettled_iff (s : State) : s.framesSettled = true
    ↔ s.pattern.startDue = false ∧ ∀ e : Port, ¬ FrameStartDue s e ∧ ¬ FrameEndDue s e := by
  unfold State.framesSettled
  rw [Bool.and_eq_true, Bool.not_eq_true', List.all_eq_true]
  refine and_congr_right fun _ => ⟨fun h e => ?_, fun h e _ => ?_⟩
  · have he := h e (List.mem_finRange e)
    rw [Bool.and_eq_true, Bool.not_eq_true', Bool.not_eq_true'] at he
    rw [← s.frameStart_iff, ← s.shutReady_iff, he.1, he.2]
    exact ⟨nofun, nofun⟩
  · obtain ⟨h1, h2⟩ := h e
    rw [← s.frameStart_iff, Bool.not_eq_true] at h1
    rw [← s.shutReady_iff, Bool.not_eq_true] at h2
    rw [h1, h2]
    rfl

theorem State.readFires_iff (s : State) (p : Port) : s.readFires p = true
    ↔ (∀ q : Port, q ≠ p → s.ports[q].readDue = false)
      ∧ ((∃ q : Port, s.ports[q].markDue = true) ∨ (s.ports[p].readOnce s.maxframe).event = .mark) := by
  unfold State.readFires allPorts
  rw [Bool.and_eq_true, Bool.or_eq_true, decide_eq_true_eq, List.all_eq_true, List.any_eq_true]
  refine and_congr ⟨fun h q hq => ?_, fun h q _ => ?_⟩ (or_congr_left ⟨?_, ?_⟩)
  · simpa [hq] using h q (List.mem_finRange q)
  · by_cases hq : q = p
    · simp [hq]
    · rw [h q hq, Bool.not_false, Bool.or_true]
  · rintro ⟨q, -, hq⟩
    exact ⟨q, hq⟩
  · rintro ⟨q, hq⟩
    exact ⟨q, List.mem_finRange q, hq⟩

theorem State.readIsDue_iff (s : State) (p : Port) : s.readIsDue p = true ↔ ReadIsOwed s p := by
  unfold State.readIsDue ReadIsOwed
  rw [Bool.and_eq_true, Bool.and_eq_true, Bool.or_eq_true, Bool.not_eq_true', ← Bool.not_eq_true, ← imp_iff_not_or,
    s.readFires_iff, s.framesSettled_iff, and_assoc, and_imp]
  exact and_congr_right fun _ => and_congr_right fun _ => forall_comm

/-! ### The events of each block -/

theorem ranOut_iff (t : Option Nat) : ranOut t = true ↔ t = some 0 := decide_eq_true_iff

/-- Where each condition says whether its event is due, the events listed are those of the list that are due. -/
theorem mem_dueOf_iff {P : Instr → Prop} {xs : List (Bool × Instr)} (h : ∀ x ∈ xs, x.1 = true ↔ P x.2) :
    c ∈ dueOf xs ↔ c ∈ xs.map Prod.snd ∧ P c := by
  rw [mem_dueOf, List.mem_map]
  constructor
  · exact fun hc => ⟨⟨_, hc, rfl⟩, (h _ hc).mp rfl⟩
  · rintro ⟨⟨⟨b, c'⟩, hc, rfl⟩, hp⟩
    have hb : b = true := (h _ hc).mpr hp
    exact hb ▸ hc

/-- The events of ingress `p`. -/
def portEvents (p : Port) : List Instr :=
  [.sdLossTimerExpiry p, .noiseWindowEnd p, .trafficTimerExpiry p, .trackerRead p]

theorem State.mem_portDue (p : Port) : c ∈ s.portDue p ↔ c ∈ portEvents p ∧ DueInRun s c := by
  refine mem_dueOf_iff (xs := [_, _, _, _]) ?_
  rw [List.forall_mem_cons, List.forall_mem_cons, List.forall_mem_cons, List.forall_mem_singleton]
  refine ⟨ranOut_iff _, ?_, ranOut_iff _, s.readIsDue_iff p⟩
  rw [Option.any_eq_true]
  exact exists_congr fun w => and_congr_right fun _ => decide_eq_true_iff

/-- The events of egress `e`, of its guard and of its INJECT view. -/
def egressEvents (e : Port) : List Instr :=
  [.drainEnd e, .deadlineExpiry e, .editSettle e, .holdOffExpiry e, .waitToRestoreExpiry e, .injectFrameStart e,
    .injectFrameSent e]

theorem Egress.terminatorDue_iff (g : Egress) : (g.terminatorDue && decide (g.current ≠ .inject)) = true
    ↔ g.state = .draining ∧ g.current ≠ .inject ∧ (g.held = some .shut ∨ g.held = some .abort) := by
  unfold Egress.terminatorDue
  rw [Bool.and_eq_true, Bool.and_eq_true, decide_eq_true_eq, decide_eq_true_eq, Option.any_eq_true, and_assoc,
    and_comm (b := g.current ≠ _)]
  simp [isTerminator_iff, and_or_left, exists_or]

theorem Egress.deadlineDue_iff (g : Egress) : g.deadlineDue = true
    ↔ g.state = .draining ∧ g.held ≠ none ∧ ∃ ch, g.change = some ch ∧ ch.deadline = some 0 := by
  unfold Egress.deadlineDue
  rw [Bool.and_eq_true, Bool.and_eq_true, decide_eq_true_eq, Option.any_eq_true, Option.isSome_iff_ne_none, and_assoc]
  simp

/-- The timer of a guard in force has run out. -/
theorem guardOut_iff (r : Option Guard) (f : Option GuardFields) (state : GuardState) :
    (decide (r.map (fun r => r.state) = some state) && f.isSome) = true
      ↔ f ≠ none ∧ ∃ x, r = some x ∧ x.state = state := by
  rw [Bool.and_eq_true, decide_eq_true_eq, Option.map_eq_some_iff, Option.isSome_iff_ne_none, and_comm]

theorem State.mem_egressDue (e : Port) : c ∈ s.egressDue e ↔ c ∈ egressEvents e ∧ DueInRun s c := by
  refine mem_dueOf_iff (xs := [_, _, _, _, _, _, _]) ?_
  rw [List.forall_mem_cons, List.forall_mem_cons, List.forall_mem_cons, List.forall_mem_cons, List.forall_mem_cons,
    List.forall_mem_cons, List.forall_mem_singleton]
  exact ⟨Egress.terminatorDue_iff _, Egress.deadlineDue_iff _, Option.isSome_iff_ne_none, guardOut_iff _ _ _,
    guardOut_iff _ _ _, s.frameStart_iff e, s.shutReady_iff e⟩

/-- The expiries of the plan in slot `k`. -/
def planEvents (k : SlotId) : List Instr := [.armExpiry k, .groupWaitExpiry k false, .groupWaitExpiry k true]

theorem State.planOut_iff (k : SlotId) (isGroup : Bool) :
    ((s.plans[k].any fun p => ranOut p.timer) && s.waits k isGroup) = true ↔ ∃ p : Plan, s.plans[k] = some p
      ∧ p.state = .armed ∧ p.timer = some 0 ∧ p.trigger.isGroup = isGroup := by
  unfold State.waits
  cases s.plans[k] with
  | none => simp
  | some p =>
    simp only [Option.any_some, Bool.and_eq_true, decide_eq_true_eq, ranOut_iff, Option.some.injEq, exists_eq_left']
    constructor
    · rintro ⟨h0, ⟨ha, -⟩, hg⟩
      exact ⟨ha, h0, hg⟩
    · rintro ⟨ha, h0, hg⟩
      exact ⟨h0, ⟨ha, by rw [h0]; rfl⟩, hg⟩

theorem Group.qualificationOver_iff (g : Group) :
    g.qualificationOver = true ↔ g.membership = .member (.released (some 0)) := decide_eq_true_iff

theorem State.mem_planDue (k : SlotId) : c ∈ s.planDue k ↔ c ∈ planEvents k ∧ DueInRun s c := by
  refine mem_dueOf_iff (xs := [_, _, _]) ?_
  rw [List.forall_mem_cons, List.forall_mem_cons, List.forall_mem_singleton]
  have group := State.planOut_iff (s := s) k true
  refine ⟨State.planOut_iff k false, ?_, ?_⟩
  · simp only [DueInRun, group, Bool.false_eq_true, false_implies, and_true]
  · simp only [DueInRun, Bool.and_eq_true (a := _ && _), group, s.group.qualificationOver_iff, true_implies]
    constructor
    · rintro ⟨⟨p, hp, ha, h0, hg⟩, hq⟩
      exact ⟨p, hp, ha, h0, hg, hq⟩
    · rintro ⟨p, hp, ha, h0, hg, hq⟩
      exact ⟨⟨p, hp, ha, h0, hg⟩, hq⟩

/-- The events of the blocks that the part has once, of the assembly contexts and of the sense inputs. -/
def blockEvents : List Instr :=
  [.qualificationComplete, .holdExpiry, .faultTimerExpiry, .patternFrameStart]
    ++ allContexts.map .assemblyTimeout ++ allSenses.map .senseQualified

theorem State.mem_blockDue : c ∈ s.blockDue ↔ c ∈ blockEvents ∧ DueInRun s c := by
  unfold State.blockDue blockEvents
  rw [List.mem_append, List.mem_append, List.mem_append, List.mem_append, or_and_right, or_and_right]
  refine or_congr (or_congr (mem_dueOf_iff (xs := [_, _, _, _]) ?_) ?_) ?_
  · rw [List.forall_mem_cons, List.forall_mem_cons, List.forall_mem_cons, List.forall_mem_singleton]
    exact ⟨decide_eq_true_iff, decide_eq_true_iff, ranOut_iff _, Bool.and_eq_true_iff⟩
  · rw [mem_dueOf_iff (P := DueInRun s), List.map_map]
    · rfl
    · rw [List.forall_mem_map]
      intro k _
      rw [Option.any_eq_true]
      exact exists_congr fun x => and_congr_right fun _ => decide_eq_true_iff
  · rw [mem_dueOf_iff (P := DueInRun s), List.map_map]
    · rfl
    · rw [List.forall_mem_map]
      exact fun n _ => decide_eq_true_iff

/-! ### The link and its requests (R163) -/

/-- The commands that are due exactly while the executor can take their request. -/
def takesRequest : Instr → Bool
  | .gapTimerExpiry | .sendComplete | .planCancel _ => false
  | .sdLossTimerExpiry _ | .noiseWindowEnd _ | .trafficTimerExpiry _ | .trackerRead _ => false
  | .drainEnd _ | .deadlineExpiry _ | .editSettle _ | .holdOffExpiry _ | .waitToRestoreExpiry _ => false
  | .injectFrameStart _ | .injectFrameSent _ => false
  | .armExpiry _ | .groupWaitExpiry _ _ => false
  | .qualificationComplete | .holdExpiry | .faultTimerExpiry | .patternFrameStart => false
  | .assemblyTimeout _ | .senseQualified _ => false
  | _ => true

theorem dueInRun_request (h : takesRequest c = true) :
    DueInRun s c ↔ ∃ m rest, s.CanTake m rest m.kind ∧ c = requestCommand m.kind := by
  cases c <;> cases h <;> rfl

theorem requestCommand_takesRequest (kind : Byte) (h : kind ≠ 0x33) : takesRequest (requestCommand kind) = true := by
  revert kind
  decide

theorem State.canTake_kind (m : Message) (rest : List Message) (kind : Byte) :
    s.CanTake m rest kind ↔ s.CanTake m rest m.kind ∧ m.kind = kind := by
  unfold State.CanTake
  exact ⟨fun ⟨h1, h2, h3, h4, h5⟩ => ⟨⟨h1, h2, h3, h4, rfl⟩, h5⟩, fun ⟨⟨h1, h2, h3, h4, _⟩, h5⟩ => ⟨h1, h2, h3, h4, h5⟩⟩

/-- The row that the executor takes, with the third outcome of a cancel (R107, R163). -/
def State.RequestDue (s : State) (c : Instr) : Prop :=
  ∃ m, s.executorHead = some m ∧ (c = requestCommand m.kind
    ∨ c = .planCancel true ∧ m.kind = 0x33 ∧ s.group.membership = .member (.released (some 0)))

theorem State.mem_linkDue : c ∈ s.linkDue ↔ (c ∈ [.gapTimerExpiry, .sendComplete] ∧ DueInRun s c)
    ∨ s.RequestDue c := by
  unfold State.linkDue State.RequestDue
  rw [List.mem_append]
  refine or_congr (mem_dueOf_iff (xs := [_, _]) ?_) ?_
  · rw [List.forall_mem_cons, List.forall_mem_singleton]
    refine ⟨ranOut_iff _, ?_⟩
    rw [ranOut_iff, Option.map_eq_some_iff]
    rfl
  · cases s.executorHead with
    | none => simp
    | some m =>
      simp only [List.mem_cons, mem_dueOf, Option.some.injEq, exists_eq_left', List.not_mem_nil, or_false,
        Prod.mk.injEq, eq_comm (a := true), Bool.and_eq_true, decide_eq_true_eq, s.group.qualificationOver_iff]
      exact or_congr_right (and_comm.trans Iff.rfl)

end

end Sys2Proof.Machine
end

section
/-! The step on an empty queue: an event that is due, or one character time (log entries 2 and 5). -/

namespace Sys2Proof.Machine

section
variable {s : State} {c : Instr}

/-! ### What is due -/

/-- The events that are due while the part runs and no join is. -/
def State.runDue (s : State) : List Instr :=
  s.linkDue ++ allPorts.flatMap s.portDue ++ allPorts.flatMap s.egressDue ++ allSlots.flatMap s.planDue ++ s.blockDue

/-- The events of the part's own that are not a request's. -/
def ownEvents : List Instr :=
  [.gapTimerExpiry, .sendComplete] ++ allPorts.flatMap portEvents ++ allPorts.flatMap egressEvents
    ++ allSlots.flatMap planEvents ++ blockEvents

theorem mem_flatMap_and {α : Type} {xs : List α} {f g : α → List Instr} {P : Prop} (h : ∀ x, c ∈ f x ↔ c ∈ g x ∧ P) :
    c ∈ xs.flatMap f ↔ c ∈ xs.flatMap g ∧ P := by
  rw [List.mem_flatMap, List.mem_flatMap]
  constructor
  · rintro ⟨x, hx, hc⟩
    exact ⟨⟨x, hx, ((h x).mp hc).1⟩, ((h x).mp hc).2⟩
  · rintro ⟨⟨x, hx, hc⟩, hp⟩
    exact ⟨x, hx, (h x).mpr ⟨hc, hp⟩⟩

theorem State.mem_runDue : c ∈ s.runDue ↔ (c ∈ ownEvents ∧ DueInRun s c) ∨ s.RequestDue c := by
  unfold State.runDue ownEvents
  simp only [List.mem_append, State.mem_linkDue, mem_flatMap_and s.mem_portDue, mem_flatMap_and s.mem_egressDue,
    mem_flatMap_and s.mem_planDue, State.mem_blockDue]
  tauto

theorem mem_allPorts_flatMap (f : Port → List Instr) (p : Port) (h : c ∈ f p) : c ∈ allPorts.flatMap f :=
  List.mem_flatMap.mpr ⟨p, List.mem_finRange p, h⟩

/-- Every command is one of the part's own events, a cancel, or due with its request alone. -/
theorem ownEvents_or_request (c : Instr) :
    c ∈ ownEvents ∨ (∃ first, c = .planCancel first) ∨ takesRequest c = true := by
  have port {p : Port} (h : c ∈ portEvents p) : c ∈ ownEvents := by
    have := mem_allPorts_flatMap portEvents p h
    simp [ownEvents, this]
  have egress {e : Port} (h : c ∈ egressEvents e) : c ∈ ownEvents := by
    have := mem_allPorts_flatMap egressEvents e h
    simp [ownEvents, this]
  have plan {k : SlotId} (h : c ∈ planEvents k) : c ∈ ownEvents := by
    have := List.mem_flatMap.mpr ⟨k, List.mem_finRange k, h⟩
    simp [ownEvents, allSlots, this]
  have block (h : c ∈ blockEvents) : c ∈ ownEvents := List.mem_append_right _ h
  cases c
  case planCancel first => exact .inr (.inl ⟨first, rfl⟩)
  case gapTimerExpiry => exact .inl (by simp [ownEvents])
  case sendComplete => exact .inl (by simp [ownEvents])
  case sdLossTimerExpiry p => exact .inl (port (p := p) (by simp [portEvents]))
  case noiseWindowEnd p => exact .inl (port (p := p) (by simp [portEvents]))
  case trafficTimerExpiry p => exact .inl (port (p := p) (by simp [portEvents]))
  case trackerRead p => exact .inl (port (p := p) (by simp [portEvents]))
  case drainEnd e => exact .inl (egress (e := e) (by simp [egressEvents]))
  case deadlineExpiry e => exact .inl (egress (e := e) (by simp [egressEvents]))
  case editSettle e => exact .inl (egress (e := e) (by simp [egressEvents]))
  case holdOffExpiry e => exact .inl (egress (e := e) (by simp [egressEvents]))
  case waitToRestoreExpiry e => exact .inl (egress (e := e) (by simp [egressEvents]))
  case injectFrameStart e => exact .inl (egress (e := e) (by simp [egressEvents]))
  case injectFrameSent e => exact .inl (egress (e := e) (by simp [egressEvents]))
  case armExpiry k => exact .inl (plan (k := k) (by simp [planEvents]))
  case groupWaitExpiry k first => exact .inl (plan (k := k) (by cases first <;> simp [planEvents]))
  case qualificationComplete => exact .inl (block (by simp [blockEvents]))
  case holdExpiry => exact .inl (block (by simp [blockEvents]))
  case faultTimerExpiry => exact .inl (block (by simp [blockEvents]))
  case patternFrameStart => exact .inl (block (by simp [blockEvents]))
  case assemblyTimeout k => exact .inl (block (by simp [blockEvents, allContexts]))
  case senseQualified n => exact .inl (block (by simp [blockEvents, allSenses]))
  all_goals exact .inr (.inr rfl)

theorem requestCommand_planCancel (kind : Byte) (first : Bool) :
    requestCommand kind = .planCancel first ↔ kind = 0x33 ∧ first = false := by
  revert kind first
  decide

/-- A cancel is due as any other request is, and in its third outcome too (R107). -/
theorem State.planCancel_due (hp : s.phase = .run) (first : Bool) :
    s.RequestDue (.planCancel first) ↔ DueInRun s (.planCancel first) := by
  unfold State.RequestDue
  simp only [DueInRun, s.canTake_kind _ _ 0x33, s.executorHead_iff hp, Instr.planCancel.injEq,
    eq_comm (b := requestCommand _), requestCommand_planCancel]
  constructor
  · rintro ⟨m, ⟨rest, hm⟩, ⟨hk, rfl⟩ | ⟨rfl, hk, hq⟩⟩
    · exact ⟨⟨m, rest, hm, hk⟩, nofun⟩
    · exact ⟨⟨m, rest, hm, hk⟩, fun _ => hq⟩
  · rintro ⟨⟨m, rest, hm, hk⟩, hq⟩
    refine ⟨m, ⟨rest, hm⟩, ?_⟩
    cases first
    · exact .inl ⟨hk, rfl⟩
    · exact .inr ⟨rfl, hk, hq rfl⟩

theorem State.request_due (hp : s.phase = .run) (h : takesRequest c = true) : s.RequestDue c ↔ DueInRun s c := by
  rw [dueInRun_request h]
  unfold State.RequestDue
  constructor
  · rintro ⟨m, hm, hc | ⟨rfl, -⟩⟩
    · obtain ⟨rest, hm⟩ := (s.executorHead_iff hp m).mp hm
      exact ⟨m, rest, hm, hc⟩
    · cases h
  · rintro ⟨m, rest, hm, hc⟩
    exact ⟨m, (s.executorHead_iff hp m).mpr ⟨rest, hm⟩, .inl hc⟩

/-- A request that the executor can take makes its own row due (R163). -/
theorem State.RequestDue.dueInRun (hp : s.phase = .run) (h : s.RequestDue c) : DueInRun s c := by
  obtain ⟨m, hm, hc⟩ := id h
  rcases hc with hc | ⟨hc, -⟩
  · by_cases hk : m.kind = 0x33
    · rw [hk] at hc
      subst hc
      exact (State.planCancel_due hp false).mp h
    · exact (State.request_due hp (hc ▸ requestCommand_takesRequest _ hk)).mp h
  · subst hc
    exact (State.planCancel_due hp true).mp h

theorem State.mem_runDue_iff (hp : s.phase = .run) : c ∈ s.runDue ↔ DueInRun s c := by
  rw [State.mem_runDue]
  constructor
  · rintro (⟨-, h⟩ | h)
    · exact h
    · exact h.dueInRun hp
  · intro h
    rcases ownEvents_or_request c with hc | ⟨first, rfl⟩ | hc
    · exact .inl ⟨hc, h⟩
    · exact .inr ((State.planCancel_due hp first).mpr h)
    · exact .inr ((State.request_due hp hc).mpr h)

theorem State.mem_joinsDue : c ∈ s.joinsDue ↔ ∃ e, c = .joinComplete e ∧ JoinDue s e := by
  unfold State.joinsDue
  rw [mem_dueOf, List.mem_map]
  constructor
  · rintro ⟨e, -, h⟩
    obtain ⟨he, rfl⟩ := Prod.mk.inj h
    exact ⟨e, rfl, (s.joinReady_iff e).mp he⟩
  · rintro ⟨e, rfl, h⟩
    exact ⟨e, List.mem_finRange e, by rw [(s.joinReady_iff e).mpr h]⟩

theorem State.no_joinDue : s.joinsDue = [] ↔ ∀ e : Port, ¬ JoinDue s e := by
  rw [s.joinsDue_eq_nil]
  exact forall_congr' fun e => by rw [← s.joinReady_iff, Bool.not_eq_true]

theorem State.mem_dueCommands : c ∈ s.dueCommands ↔ Due s c := by
  unfold State.dueCommands Due
  cases hp : s.phase with
  | hardwareReset cause => exact iff_of_false List.not_mem_nil id
  | restart left =>
    dsimp only
    split
    · rename_i hl
      rw [List.mem_singleton]
      exact (and_iff_right hl).symm
    · rename_i hl
      exact iff_of_false List.not_mem_nil fun h => hl h.1
  | run =>
    dsimp only
    split
    · rename_i hj
      have hn := State.no_joinDue.mp (List.isEmpty_iff.mp hj)
      refine (State.mem_runDue_iff hp).trans ⟨fun h => .inr ⟨hn, h⟩, ?_⟩
      rintro (⟨e, -, he⟩ | ⟨-, h⟩)
      · exact absurd he (hn e)
      · exact h
    · rename_i hj
      refine State.mem_joinsDue.trans ⟨.inl, ?_⟩
      rintro (h | ⟨hn, -⟩)
      · exact h
      · exact absurd (List.isEmpty_iff.mpr (State.no_joinDue.mpr hn)) hj

/-! ### The event that is taken (log entry 2) -/

section
variable (h : s.pending = [])
include h

theorem step_of_nextDue {draws : Nat} (hn : s.nextDue = some (c, draws)) : step s = exec c (s.setDraws draws) := by
  unfold step
  rw [h]
  dsimp only
  rw [hn]

theorem step_of_one (hd : s.dueCommands = [c]) : step s = exec c s := by
  refine step_of_nextDue (draws := s.draws) h ?_
  unfold State.nextDue
  rw [hd]

theorem step_of_choice (hl : 2 ≤ s.dueCommands.length)
    (hc : s.dueCommands[Config.freeChoice s.draws % s.dueCommands.length]? = some c) :
    step s = exec c (s.setDraws (s.draws + 1)) := by
  refine step_of_nextDue h ?_
  unfold State.nextDue
  split
  · rename_i hd
    simp [hd] at hl
  · rename_i hd
    simp [hd] at hl
  · rename_i c' d rest hd
    rw [hd] at hc
    exact congrArg (fun x : Option Instr => some (x.getD c', s.draws + 1)) hc

theorem step_of_due (hd : s.dueCommands ≠ []) : ∃ c ∈ s.dueCommands, ∃ draws, step s = exec c (s.setDraws draws) := by
  have hpos : 0 < s.dueCommands.length := List.length_pos_of_ne_nil hd
  by_cases hl : 2 ≤ s.dueCommands.length
  · have hi : Config.freeChoice s.draws % s.dueCommands.length < s.dueCommands.length := Nat.mod_lt _ hpos
    exact ⟨_, List.getElem_mem hi, _, step_of_choice h hl (List.getElem?_eq_getElem hi)⟩
  · have hone : s.dueCommands.length = 1 := by omega
    obtain ⟨c, hc⟩ := List.length_eq_one_iff.mp hone
    exact ⟨c, hc ▸ List.mem_singleton_self c, s.draws, step_of_one h hc⟩

theorem step_of_none (hd : s.dueCommands = []) : step s = .next s.newTime := by
  have hn : s.nextDue = none := by
    unfold State.nextDue
    rw [hd]
  unfold step
  rw [h]
  dsimp only
  rw [hn]

end

end

end Sys2Proof.Machine
end

section
/-! One character time passes (section 0.7, R170; log entry 5). -/

namespace Sys2Proof.Machine

section
variable {s t u : State}

/-! ### What the sources of the part's own change of a state -/

/-- From `s` to `t` a character time has gone on in the generator, in the INJECT views and at the egresses, whose
entry records stay. -/
structure State.SourcesOnly (s t : State) : Prop where
  frame : t = { s with
    egresses := t.egresses, pattern := t.pattern, pool := { s.pool with views := t.pool.views } }
  entry : ∀ e : Port, t.egresses[e].entry = s.egresses[e].entry

theorem State.SourcesOnly.refl (s : State) : s.SourcesOnly s := ⟨rfl, fun _ => rfl⟩

theorem State.SourcesOnly.trans (h : s.SourcesOnly t) (k : t.SourcesOnly u) : s.SourcesOnly u := by
  refine ⟨?_, fun e => (k.entry e).trans (h.entry e)⟩
  rw [k.frame, h.frame]

theorem State.setView_sources (s : State) (e : Port) (v : View) : s.SourcesOnly (s.setPool (s.pool.setView e v)) :=
  ⟨rfl, fun _ => rfl⟩

theorem State.setEgress_sources (s : State) (e : Port) (g : Egress) (hg : g.entry = s.egresses[e].entry) :
    s.SourcesOnly (s.setEgress e g) := by
  refine ⟨rfl, fun j => ?_⟩
  by_cases hj : j = e
  · rw [hj, setEgress_same, hg]
  · rw [setEgress_other s e g j hj]

theorem State.viewNewTime_sources (s : State) (e : Port) : s.SourcesOnly (s.viewNewTime e) := by
  have both (v : View) (src : Source) (c : Character) :
      s.SourcesOnly ((s.setPool (s.pool.setView e v)).setEgress e (s.egresses[e].receive src c)) :=
    (s.setView_sources e v).trans (State.setEgress_sources _ e _ (Egress.receive_entry _ src c))
  unfold State.viewNewTime
  dsimp only
  split
  · split
    · exact s.setView_sources e _
    · exact both _ _ _
  · split
    · split
      · exact s.setEgress_sources e _ (Egress.receive_entry _ _ _)
      · exact both _ _ _
    · split
      · exact both _ _ _
      · exact s.setView_sources e _

theorem State.patternNewTime_sources (s : State) : s.SourcesOnly s.patternNewTime := by
  unfold State.patternNewTime
  dsimp only
  split
  · refine ⟨rfl, fun e => ?_⟩
    rw [offer_egress]
    exact Egress.receive_entry _ _ _
  · exact ⟨rfl, fun _ => rfl⟩

theorem State.foldl_viewNewTime_sources (es : List Port) (s : State) :
    s.SourcesOnly (es.foldl State.viewNewTime s) := by
  induction es generalizing s with
  | nil => exact .refl s
  | cons e es ih => exact (s.viewNewTime_sources e).trans (ih _)

/-- The state one character time later, while the part runs. -/
def State.runNewTime (s : State) : State := allPorts.foldl State.viewNewTime s.clocksNewTime.patternNewTime

theorem State.runNewTime_sources (s : State) : s.clocksNewTime.SourcesOnly s.runNewTime :=
  s.clocksNewTime.patternNewTime_sources.trans (State.foldl_viewNewTime_sources _ _)

theorem State.newTime_run (h : s.phase = .run) : s.newTime = s.runNewTime := by
  unfold State.newTime
  rw [h]
  rfl

theorem State.newTime_restart {left : Nat} (h : s.phase = .restart left) :
    s.newTime = { s with phase := .restart (left - 1) } := by
  unfold State.newTime
  rw [h]

theorem State.newTime_hardwareReset {cause : HardwareCause} (h : s.phase = .hardwareReset cause) : s.newTime = s := by
  unfold State.newTime
  rw [h]

/-! ### The clocks -/

theorem Egress.newTime_entry (g : Egress) : g.newTime.entry = g.entry := by
  unfold Egress.newTime
  split
  · rfl
  · rfl
  · split <;> rfl
  · rfl

theorem clocksNewTime_guard (s : State) (e : Port) : s.clocksNewTime.guards[e]
    = s.guards[e].map fun r : Guard => { r with state := r.state.newTime } :=
  Vector.getElem_map _ e.isLt

theorem clocksNewTime_plan (s : State) (k : SlotId) : s.clocksNewTime.plans[k]
    = s.plans[k].map fun p : Plan => { p with timer := p.timer.map fun n => n - 1 } :=
  Vector.getElem_map _ k.isLt

theorem clocksNewTime_context (s : State) (k : ContextId) : s.clocksNewTime.pool.contexts[k]
    = s.pool.contexts[k].map fun c : Context => { c with timer := c.timer - 1 } :=
  Vector.getElem_map _ k.isLt

theorem clocksNewTime_sense (s : State) (n : SenseId) :
    s.clocksNewTime.senses[n] = { s.senses[n] with qualifier := s.senses[n].qualifier.newTime } :=
  Vector.getElem_map _ n.isLt

theorem Qualifier.newTime_eq (q : Qualifier) : q.newTime =
    match q with
    | .qualifying left => .qualifying (left - 1)
    | q => q := by
  cases q <;> rfl

theorem Membership.newTime_eq (m : Membership) : m.newTime =
    match m with
    | .member (.released q) => .member (.released (q.map fun n => n - 1))
    | .member (.hold left) => .member (.hold (left - 1))
    | m => m := by
  cases m with
  | unset => rfl
  | nonMember => rfl
  | member x => cases x <;> rfl

theorem GuardState.newTime_of_timer {g : GuardState} (h : g.timer = none) : g.newTime = g := by
  cases g <;> cases h <;> rfl

/-! ### The passing of one character time -/

section
variable (s)

theorem State.runNewTime_port (p : Port) : s.runNewTime.ports[p] = s.ports[p].newTime := by
  rw [s.runNewTime_sources.frame]
  exact clocksNewTime_port s p

theorem State.runNewTime_guard (e : Port) : s.runNewTime.guards[e]
    = s.guards[e].map fun r : Guard => { r with state := r.state.newTime } := by
  rw [s.runNewTime_sources.frame]
  exact clocksNewTime_guard s e

theorem State.runNewTime_guard_of {e : Port} {r : Guard} {g : GuardState} (hr : s.guards[e] = some r)
    (hg : r.state.newTime = g) : s.runNewTime.guards[e] = some { r with state := g } := by
  rw [s.runNewTime_guard, hr, Option.map_some, hg]

theorem State.runNewTime_entry (e : Port) : s.runNewTime.egresses[e].entry = s.egresses[e].entry := by
  rw [s.runNewTime_sources.entry, clocksNewTime_egress, Egress.newTime_entry]

theorem State.runNewTime_clock : (s.subMicro < 99 → s.runNewTime.timeBase = s.timeBase
      ∧ s.runNewTime.subMicro = s.subMicro + 1)
    ∧ (99 ≤ s.subMicro → s.runNewTime.timeBase = s.timeBase + 1 ∧ s.runNewTime.subMicro = 0) := by
  rw [s.runNewTime_sources.frame]
  exact ⟨fun h => ⟨if_neg (Nat.not_le.mpr h), if_neg (Nat.not_le.mpr h)⟩, fun h => ⟨if_pos h, if_pos h⟩⟩

end

end

/-- Settles O3: what is due, what the step takes of it, and what one character time changes. -/
theorem emptyQueueTakesADueEventOrPassesTime : Obligations.EmptyQueueTakesADueEventOrPassesTime := by
  intro s h
  refine ⟨fun c => State.mem_dueCommands, fun c => step_of_one h, fun c => step_of_choice h, step_of_due h,
    fun hd left hp => ?_, fun cause hp => ?_, fun hd hp => ⟨s.runNewTime, ?_, ?_⟩⟩
  · rw [step_of_none h hd, State.newTime_restart hp]
  · have hd : s.dueCommands = [] := by
      unfold State.dueCommands
      rw [hp]
    rw [step_of_none h hd, State.newTime_hardwareReset hp]
  · rw [step_of_none h hd, State.newTime_run hp]
  · have hf := s.runNewTime_sources.frame
    obtain ⟨hbefore, hafter⟩ := s.runNewTime_clock
    refine ⟨rfl, rfl, rfl, clocksNewTime_egress s, s.runNewTime_port, fun e r hr => ⟨fun left hl => ?_,
      fun left hl => ?_,
      fun hn => s.runNewTime_guard_of hr (GuardState.newTime_of_timer hn)⟩, fun k => ?_, fun k => ?_, ?_, fun n => ?_,
      ?_, hbefore, hafter, ?_, ?_, ?_, ?_, ?_, ?_, ?_, ?_, ?_, ?_, s.runNewTime_entry⟩
    · exact s.runNewTime_guard_of hr (by rw [hl]; rfl)
    · exact s.runNewTime_guard_of hr (by rw [hl]; rfl)
    · rw [hf]
      exact clocksNewTime_plan s k
    · rw [hf]
      exact clocksNewTime_context s k
    · rw [hf]
      exact congrArg (fun m => { s.group with membership := m, faultTimer := s.group.faultTimer.map fun n => n - 1 })
        s.group.membership.newTime_eq
    · rw [hf]
      exact (clocksNewTime_sense s n).trans
        (congrArg (fun q => { s.senses[n] with qualifier := q }) (Qualifier.newTime_eq _))
    · rw [hf]
      rfl
    all_goals rw [hf]
    · rfl
    · rfl
    · rfl
    · rfl
    · rfl
    · rfl
    · rfl
    · rfl
    · rfl
    · exact h

end Sys2Proof.Machine
end

section
/-! What a change of source leaves of its own egress's guard record, of the assembly contexts and of the notices that
wait (R49, R54, R136, R148). -/

namespace Sys2Proof.Machine

/-- From `s` to `t` the guard of `e` stays in its state, the assembly contexts of other targets and the next frame id
stay, and while MTX is busy every notice that waits goes on waiting. -/
structure State.ChangeReach (e : Port) (s t : State) : Prop where
  guard : t.guards[e].map Guard.state = s.guards[e].map Guard.state
  others : ∀ (k : ContextId) (c : Context), s.pool.contexts[k] = some c → c.target ≠ e → t.pool.contexts[k] = some c
  free : ∀ k : ContextId, s.pool.contexts[k] = none → t.pool.contexts[k] = none
  nextId : t.pool.nextId = s.pool.nextId
  busy : s.link.mtx.isSome → t.link = s.link ∧ s.notices.entries <+: t.notices.entries

section
variable {e : Port} {s t u : State}

theorem State.ChangeReach.trans (h : State.ChangeReach e s t) (k : State.ChangeReach e t u) :
    State.ChangeReach e s u := by
  refine ⟨k.guard.trans h.guard, fun j c hj hc => k.others j c (h.others j c hj hc) hc,
    fun j hj => k.free j (h.free j hj), k.nextId.trans h.nextId, fun hb => ?_⟩
  obtain ⟨hl, hn⟩ := h.busy hb
  obtain ⟨kl, kn⟩ := k.busy (by rw [hl]; exact hb)
  exact ⟨kl.trans hl, hn.trans kn⟩

/-- An operation that leaves the guard records, the pool, the link and the notices. -/
theorem State.ChangeReach.of_eq (hg : t.guards = s.guards) (hp : t.pool = s.pool) (hl : t.link = s.link)
    (hn : t.notices = s.notices) : State.ChangeReach e s t := by
  refine ⟨by rw [hg], fun k c h _ => by rw [hp, h], fun k h => by rw [hp, h], by rw [hp], fun _ => ⟨hl, ?_⟩⟩
  rw [hn]

theorem State.ChangeReach.refl (e : Port) (s : State) : State.ChangeReach e s s := .of_eq rfl rfl rfl rfl

theorem State.setEgress_changeReach (s : State) (e : Port) (g : Egress) : State.ChangeReach e s (s.setEgress e g) :=
  .of_eq rfl rfl rfl rfl

/-- A pool whose contexts of other targets, free contexts and next frame id are as they were. -/
theorem State.setPool_changeReach (s : State) (e : Port) (p : Pool)
    (ho : ∀ (k : ContextId) (c : Context), s.pool.contexts[k] = some c → c.target ≠ e → p.contexts[k] = some c)
    (hf : ∀ k : ContextId, s.pool.contexts[k] = none → p.contexts[k] = none) (hn : p.nextId = s.pool.nextId) :
    State.ChangeReach e s (s.setPool p) :=
  ⟨rfl, ho, hf, hn, fun _ => ⟨rfl, List.prefix_rfl⟩⟩

/-- A view of the pool is no context of it. -/
theorem State.setView_changeReach (s : State) (e : Port) (v : View) :
    State.ChangeReach e s (s.setPool (s.pool.setView e v)) :=
  s.setPool_changeReach e _ (fun _ _ h _ => h) (fun _ h => h) rfl

theorem State.giveBack_changeReach (s : State) (e : Port) (v : View) (d n : Nat) :
    State.ChangeReach e s (s.setPool ((s.pool.setView e v).giveBack d n)) :=
  s.setPool_changeReach e _ (fun _ _ h _ => h) (fun _ h => h) rfl

theorem NoticeQueue.offer_prefix (q : NoticeQueue) (t : Word32) (b : NoticeBody) :
    q.entries <+: (q.offer t b).entries := by
  unfold NoticeQueue.offer
  split
  · exact List.prefix_append _ _
  · exact List.prefix_rfl

theorem State.notify_changeReach (s : State) (e : Port) (b : NoticeBody) : State.ChangeReach e s (s.notify b) := by
  have h := s.notify_sameMap b
  refine ⟨by rw [h.guards], fun k c hk _ => by rw [h.pool, hk], fun k hk => by rw [h.pool, hk], by rw [h.pool],
    fun hb => ?_⟩
  rw [s.notify_busy b hb]
  exact ⟨rfl, s.notices.offer_prefix _ _⟩

theorem discard_contexts (p : Pool) (e : Port) (k : ContextId) :
    (p.discard e).contexts[k] = p.contexts[k].filter fun x => decide (x.target ≠ e) := by
  simp [Pool.discard, Pool.setView]

theorem State.injectDiscard_changeReach (s : State) (e : Port) : State.ChangeReach e s (s.injectDiscard e) := by
  have h := s.setPool_changeReach e (s.pool.discard e)
    (fun k c hk hc => by rw [discard_contexts, hk]; simp [hc]) (fun k hk => by rw [discard_contexts, hk]; rfl) rfl
  unfold State.injectDiscard
  dsimp only
  split
  · exact h
  · exact h.trans (State.notify_changeReach _ e _)

theorem State.injectCut_changeReach (s : State) (e : Port) : State.ChangeReach e s (s.injectCut e) := by
  unfold State.injectCut
  dsimp only
  split
  · exact .refl e s
  · exact (s.giveBack_changeReach e _ 1 _).trans (State.notify_changeReach _ e _)

theorem State.injectSent_changeReach (s : State) (e : Port) : State.ChangeReach e s (s.injectSent e) := by
  unfold State.injectSent
  dsimp only
  split
  · exact .refl e s
  · split
    · exact (s.giveBack_changeReach e _ 1 _).trans (State.notify_changeReach _ e _)
    · exact s.giveBack_changeReach e _ 1 _

theorem State.settle_changeReach (s : State) (e : Port) (ch : Change) (o : Settlement) :
    State.ChangeReach e s (s.settle e ch o) := by
  unfold State.settle State.guardSettled
  dsimp only
  split
  · split
    · exact s.notify_changeReach e _
    · exact .refl e s
  · exact s.setEgress_changeReach e _
  · split
    · exact .refl e s
    · rename_i g hg
      split
      · exact ⟨by rw [setGuard_same, hg]; rfl, fun _ _ h _ => h, fun _ h => h, rfl, fun _ => ⟨rfl, List.prefix_rfl⟩⟩
      · exact .refl e s

theorem State.tryJoin_changeReach (s : State) (e : Port) : State.ChangeReach e s (s.tryJoin e) := by
  unfold State.tryJoin
  dsimp only
  split
  · exact .refl e s
  · split
    · exact (s.setEgress_changeReach e _).trans (State.settle_changeReach _ e _ _)
    · exact .refl e s

theorem State.leaveFrame_changeReach (s : State) (e : Port) (ch : Change) :
    State.ChangeReach e s (s.leaveFrame e ch) := by
  unfold State.leaveFrame
  dsimp only
  split
  · exact (s.setEgress_changeReach e _).trans (State.settle_changeReach _ e _ _)
  · exact (s.setEgress_changeReach e _).trans (State.tryJoin_changeReach _ e)

theorem State.cutLeave_changeReach (s : State) (e : Port) (ch : Change) :
    State.ChangeReach e s (s.cutLeave e ch) :=
  (s.setEgress_changeReach e _).trans (State.leaveFrame_changeReach _ e ch)

theorem State.takeIdle_changeReach (s : State) (e : Port) (ch : Change) :
    State.ChangeReach e s (s.takeIdle e ch) := by
  unfold State.takeIdle
  dsimp only
  split
  · exact s.settle_changeReach e ch _
  · split
    · split
      · exact s.cutLeave_changeReach e _
      · exact s.setEgress_changeReach e _
    · exact s.leaveFrame_changeReach e ch

theorem State.putReleased_changeReach (s : State) (e : Port) (g : Egress) :
    State.ChangeReach e s (s.putReleased e g) := by
  unfold State.putReleased
  dsimp only
  split
  · split
    · exact (s.setEgress_changeReach e _).trans (State.setView_changeReach _ e _)
    · exact s.setEgress_changeReach e _
  · exact s.setEgress_changeReach e _

theorem State.takeDraining_changeReach (s : State) (e : Port) (ch : Change) :
    State.ChangeReach e s (s.takeDraining e ch) := by
  unfold State.takeDraining
  dsimp only
  split
  · exact (s.putReleased_changeReach e _).trans (State.settle_changeReach _ e _ _)
  · split
    · exact s.cutLeave_changeReach e _
    · exact s.putReleased_changeReach e _

theorem State.actOn_changeReach (s : State) (e : Port) (ch : Change) : State.ChangeReach e s (s.actOn e ch) := by
  unfold State.actOn
  split
  · exact s.takeIdle_changeReach e ch
  · exact s.takeIdle_changeReach e ch
  · exact s.takeDraining_changeReach e ch
  · exact s.leaveFrame_changeReach e ch

theorem Egress.injectionPart_changeReach (g : Egress) (e : Port) (ch : Change) :
    ∀ f ∈ g.injectionPart e ch, ∀ t : State, State.ChangeReach e t (f t) := by
  intro f hf t
  rcases Egress.mem_injectionPart hf with rfl | ⟨rfl, -⟩
  · exact t.injectDiscard_changeReach e
  · exact t.injectCut_changeReach e

theorem Egress.selectorPart_changeReach (g : Egress) (e : Port) (ch : Change) :
    ∀ f ∈ g.selectorPart e ch, ∀ t : State, State.ChangeReach e t (f t) := by
  intro f hf t
  rcases Egress.mem_selectorPart.mp hf with ⟨old, -, rfl⟩ | rfl
  · exact t.settle_changeReach e old _
  · exact t.actOn_changeReach e ch

theorem State.together_changeReach (s : State) (e : Port) (blocks : List (List (State → State)))
    (hf : ∀ b ∈ blocks, ∀ f ∈ b, ∀ t : State, State.ChangeReach e t (f t)) :
    State.ChangeReach e s (s.together blocks) :=
  State.together_keeps (fun t => State.ChangeReach e s t) (fun _ _ h => h.trans (.of_eq rfl rfl rfl rfl)) s blocks
    (fun b hb f hm t h => h.trans (hf b hb f hm t)) (.refl e s)

theorem State.takeChange_changeReach (s : State) (e : Port) (ch : Change) :
    State.ChangeReach e s (s.takeChange e ch) :=
  s.together_changeReach e _ fun b hb => by
    rcases List.mem_pair.mp hb with rfl | rfl
    · exact Egress.injectionPart_changeReach _ e ch
    · exact Egress.selectorPart_changeReach _ e ch

end

/-- Settles O29: what a change can touch of its own egress, of the others, and of the notices, each by the rule of the
operations that it is made of. -/
theorem changeOnOneEgressDisturbsNoOther : Obligations.ChangeOnOneEgressDisturbsNoOther := by
  intro s e ch t
  have at' : State.OnlyAt e s t := s.takeChange_onlyAt e ch
  have reach : State.ChangeReach e s t := s.takeChange_changeReach e ch
  obtain ⟨⟨es, gs, p, cs, ns, l, d, ht⟩, notices⟩ : s.SelectorReach t := s.takeChange_selector e ch
  refine ⟨fun f hf => ⟨at'.egresses f hf, at'.guards f hf, at'.views f hf⟩, reach.others, reach.free, reach.nextId,
    at'.entry, reach.guard, at'.ports, at'.pattern, ?_, ?_, ?_, ?_, ?_, ?_, ?_, ?_, ?_, ?_, notices,
    fun hb => (reach.busy hb).2⟩
  all_goals rw [ht]

end Sys2Proof.Machine
end

section
/-! Settling, joining, leaving a frame and taking a change, case by case (R29, R34 to R42). -/

namespace Sys2Proof.Machine

/-! ### Settling (R42, R48, R54) -/

section
variable {s : State} {e : Port} {ch : Change}

theorem State.settle_connect {tag : Byte} {notify : Bool} (h : ch.requester = .connect tag notify) (o : Settlement) :
    s.settle e ch o = if notify then
      s.notify (.settled e tag ch.target o (decide (o ≠ .superseded) && s.sourceDown ch.target)) else s := by
  unfold State.settle
  rw [h]

theorem State.settle_plan {id : Byte} (h : ch.requester = .plan id) (o : Settlement) :
    s.settle e ch o = s.setEgress e { s.egresses[e] with
      planSettle := some
        { id := id, outcome := o, sourceDown := decide (o ≠ .superseded) && s.sourceDown ch.target } } := by
  unfold State.settle
  rw [h]

theorem State.settle_guard {ident : Nat} (h : ch.requester = .guard ident) (o : Settlement) :
    s.settle e ch o
      = s.guardSettled e ident ch.target o (decide (o ≠ .superseded) && s.sourceDown ch.target) := by
  unfold State.settle
  rw [h]

/-- A settle event of a switch is recorded by the guard record that asked (R54). -/
theorem State.guardSettled_asked {ident : Nat} {g : Guard} (hg : s.guards[e] = some g) (hi : g.ident = ident)
    (target : Source) (o : Settlement) (down : Bool) :
    s.guardSettled e ident target o down
      = s.setGuard e (some { g with
          last := some
            { target := if s.egresses[e].entry.source = target then .primary else .standby
              outcome := o, sourceDown := down } }) := by
  unfold State.guardSettled
  rw [hg]
  exact if_pos hi

/-- A settle event of a switch whose guard record is no longer in force comes to nothing (R54). -/
theorem State.guardSettled_gone {ident : Nat} (h : s.guards[e].map Guard.ident ≠ some ident) (target : Source)
    (o : Settlement) (down : Bool) : s.guardSettled e ident target o down = s := by
  unfold State.guardSettled
  split
  · rfl
  · rename_i g hg
    exact if_neg fun hi => h (by rw [hg, ← hi]; rfl)

/-- Of the selector a settle event touches what it hands to the plan controller alone (R85). -/
theorem State.settle_egress (s : State) (e : Port) (ch : Change) (o : Settlement) :
    (s.settle e ch o).egresses[e]
      = { s.egresses[e] with planSettle := (s.settle e ch o).egresses[e].planSettle } := by
  have same {t : State} (h : t.egresses = s.egresses) :
      t.egresses[e] = { s.egresses[e] with planSettle := t.egresses[e].planSettle } := by rw [h]
  cases hr : ch.requester with
  | connect tag notify =>
    rw [State.settle_connect hr]
    split
    · exact same (s.notify_sameMap _).egresses
    · rfl
  | plan id =>
    rw [State.settle_plan hr, setEgress_same]
  | guard ident =>
    rw [State.settle_guard hr]
    unfold State.guardSettled
    split
    · rfl
    · dsimp only
      split <;> rfl

end

/-- An ingress is fit in QUIET and CARRY (R8). -/
theorem LineState.fit_eq (l : LineState) : l.fit = (decide (l = .quiet) || decide (l = .carry)) := by
  rw [Bool.eq_iff_iff, l.fit_iff]
  simp

/-- Settles O28: the cases of the requester. -/
theorem settleGoesToTheRequester : Obligations.SettleGoesToTheRequester := by
  intro s e ch o down
  refine ⟨fun tag h => State.settle_connect h o, fun tag h => State.settle_connect h o,
    fun id h => State.settle_plan h o, fun ident g h hg hi => ?_, fun ident h hg => ?_, fun p => ?_, rfl, rfl, rfl, rfl⟩
  · rw [State.settle_guard h, State.guardSettled_asked hg hi]
  · rw [State.settle_guard h, State.guardSettled_gone hg]
  · exact congrArg (!·) s.ports[p].line.fit_eq

/-! ### A change that the injection buffer does not hear of (R33, R44) -/

section
variable {s : State} {e : Port} {ch : Change}

theorem State.takeChange_stays (h : ¬ (s.egresses[e].current = .inject ∧ ch.target ≠ .inject))
    (hc : s.egresses[e].change = none) : s.takeChange e ch = s.actOn e ch := by
  rw [s.takeChange_selectorAlone e ch (by tauto)]
  unfold Egress.selectorPart
  rw [hc]
  rfl

theorem State.takeChange_supersedes (h : ¬ (s.egresses[e].current = .inject ∧ ch.target ≠ .inject)) {old : Change}
    (hc : s.egresses[e].change = some old) : s.takeChange e ch = (s.settle e old .superseded).actOn e ch := by
  rw [s.takeChange_selectorAlone e ch (by tauto)]
  unfold Egress.selectorPart
  rw [hc]
  rfl

theorem State.actOn_idle (h : s.egresses[e].state = .steady ∨ s.egresses[e].state = .off) :
    s.actOn e ch = s.takeIdle e ch := by
  unfold State.actOn
  rcases h with h | h <;> rw [h]

theorem State.actOn_draining (h : s.egresses[e].state = .draining) : s.actOn e ch = s.takeDraining e ch := by
  unfold State.actOn
  rw [h]

theorem State.actOn_joining (h : s.egresses[e].state = .joining) : s.actOn e ch = s.leaveFrame e ch := by
  unfold State.actOn
  rw [h]

theorem State.takeIdle_same (h : ch.target = s.egresses[e].current) : s.takeIdle e ch = s.settle e ch .clean :=
  if_pos h

theorem State.takeIdle_outside (h : ch.target ≠ s.egresses[e].current) (hi : s.egresses[e].inside = false) :
    s.takeIdle e ch = s.leaveFrame e ch := by
  unfold State.takeIdle
  rw [if_neg h, hi]
  rfl

theorem State.takeIdle_clean (h : ch.target ≠ s.egresses[e].current) (hi : s.egresses[e].inside = true)
    (hp : ch.policy = .clean) :
    s.takeIdle e ch = s.setEgress e { s.egresses[e] with state := .draining, change := some ch } := by
  unfold State.takeIdle
  simp only [if_neg h, hi, if_true, hp]

theorem State.takeIdle_force (h : ch.target ≠ s.egresses[e].current) (hi : s.egresses[e].inside = true)
    (hp : ch.policy = .force) : s.takeIdle e ch = s.cutLeave e { ch with cut := .forced } := by
  unfold State.takeIdle
  simp only [if_neg h, hi, if_true, hp]

theorem State.takeDraining_clean (h : ch.target ≠ s.egresses[e].current) (hp : ch.policy = .clean) :
    s.takeDraining e ch = s.putReleased e (s.egresses[e].drainAfresh ch) := by
  unfold State.takeDraining
  simp only [if_neg h, hp]

theorem State.takeDraining_force (h : ch.target ≠ s.egresses[e].current) (hp : ch.policy = .force) :
    s.takeDraining e ch = s.cutLeave e { ch with cut := .forced } := by
  unfold State.takeDraining
  simp only [if_neg h, hp]

theorem State.takeDraining_same (h : ch.target = s.egresses[e].current) :
    s.takeDraining e ch
      = (s.putReleased e { s.egresses[e].resume with state := .steady, change := none }).settle e ch .clean :=
  if_pos h

/-! ### Leaving a frame (R36 to R38) -/

@[simp] theorem setEgress_setEgress (s : State) (e : Port) (g h : Egress) :
    (s.setEgress e g).setEgress e h = s.setEgress e h := by
  simp [State.setEgress]

theorem State.leaveFrame_hold (h : ch.target = .hold) :
    s.leaveFrame e ch
      = (s.setEgress e { s.egresses[e] with
          state := .off, current := .hold, change := none, inside := false, held := none }).settle e ch
          ch.cut.outcome :=
  if_pos h

theorem State.tryJoin_completes (hs : s.egresses[e].state = .joining) (hc : s.egresses[e].change = some ch)
    (hb : s.betweenFrames e ch.target = true) :
    s.tryJoin e
      = (s.setEgress e { s.egresses[e] with state := .steady, current := ch.target, change := none }).settle e ch
          ch.cut.outcome := by
  unfold State.tryJoin
  simp only [hc, hs, hb, decide_true, Bool.and_self, if_true]

theorem State.tryJoin_waits (hc : s.egresses[e].change = some ch) (hb : s.betweenFrames e ch.target = false) :
    s.tryJoin e = s := by
  unfold State.tryJoin
  simp only [hc, hb, Bool.and_false, Bool.false_eq_true, if_false]

theorem State.leaveFrame_joins (h : ch.target ≠ .hold) (hb : s.betweenFrames e ch.target = true) :
    s.leaveFrame e ch
      = (s.setEgress e { s.egresses[e] with
          state := .steady, current := ch.target, change := none, inside := false, held := none
          line := if s.egresses[e].state = .off ∧ ch.target = .fill then some .fill
            else s.egresses[e].line }).settle e ch ch.cut.outcome := by
  have hl : s.lineOnLeaving e ch
      = if s.egresses[e].state = .off ∧ ch.target = .fill then some .fill else s.egresses[e].line := by
    unfold State.lineOnLeaving
    simp [hb]
  unfold State.leaveFrame
  simp only [if_neg h, hl]
  rw [State.tryJoin_completes (by rw [setEgress_same]) (by rw [setEgress_same]) (by simpa using hb)]
  simp

theorem State.leaveFrame_waits (h : ch.target ≠ .hold) (hb : s.betweenFrames e ch.target = false) :
    s.leaveFrame e ch
      = s.setEgress e { s.egresses[e] with
          state := .joining, change := some ch, inside := false, held := none
          line := if s.egresses[e].state = .off then some .fill else s.egresses[e].line } := by
  have hl : s.lineOnLeaving e ch
      = if s.egresses[e].state = .off then some .fill else s.egresses[e].line := by
    unfold State.lineOnLeaving
    simp [hb]
  unfold State.leaveFrame
  simp only [if_neg h, hl]
  exact State.tryJoin_waits (by rw [setEgress_same]) (by simpa using hb)

end

/-- When a source is between frames (R29). -/
theorem betweenFrames_sources (s : State) (e : Port) : BetweenFrames s e := by
  refine ⟨fun p => ?_, rfl, rfl, ?_, Option.isNone_iff_eq_none⟩
  · simp [State.betweenFrames, Ingress.betweenFrames]
  · unfold State.betweenFrames Pattern.betweenFrames
    cases s.pattern.phase with
    | idle => simp
    | frame seq length gap pos =>
      simp only [decide_eq_true_eq, PatternPhase.frame.injEq, Nat.succ_le_iff]
      exact ⟨fun h _ _ _ _ ⟨_, hl, _, hp⟩ => hl ▸ hp ▸ h, fun h => h _ _ _ _ ⟨rfl, rfl, rfl, rfl⟩⟩
    | gap seq length gap pos => simp

/-- Settles O25: a change to the source already carried is the selector's alone, and settles. -/
theorem sameSourceSettlesCleanAtOnce : Obligations.SameSourceSettlesCleanAtOnce := by
  intro s e ch hs hc ht
  have h : s.takeChange e ch = s.settle e ch .clean := by
    rw [State.takeChange_stays (fun ⟨hj, hn⟩ => hn (ht.trans hj)) hc, State.actOn_idle hs, State.takeIdle_same ht]
  rw [h, s.settle_egress e ch .clean]
  exact ⟨rfl, rfl, rfl, rfl, rfl, hc⟩

/-- Settles O26: the cases of a change in STEADY and OFF, and of leaving a frame. -/
theorem anotherSourceLeavesDrainsOrCuts : Obligations.AnotherSourceLeavesDrainsOrCuts := by
  intro s e ch g away
  refine ⟨State.takeChange_stays, fun _ => s.together_order _, fun h => if_pos h, fun h => if_neg h, fun hc => ?_,
    fun hs hn => ⟨?_, fun hi => ?_, fun hi hp => ?_, fun hi hp => ?_⟩, rfl, State.leaveFrame_hold,
    State.leaveFrame_joins, State.leaveFrame_waits, betweenFrames_sources s e, rfl, rfl, rfl⟩
  · unfold Egress.selectorPart
    rw [hc]
    rfl
  · unfold Egress.cutBy
    rcases hs with hs | hs <;> simp [hs, hn, and_comm]
  · rw [State.actOn_idle hs, State.takeIdle_outside hn hi]
  · rw [State.actOn_idle hs, State.takeIdle_clean hn hi hp]
  · rw [State.actOn_idle hs, State.takeIdle_force hn hi hp]

end Sys2Proof.Machine
end

section
/-! A change that supersedes another (R40, R41), the ends of drains and joins (R37 to R39), and what a selector sends of
its source (R31). -/

namespace Sys2Proof.Machine

/-! ### A character held back when its drain is withdrawn or drains on (R40, R41, R134, R135) -/

theorem setView_self (p : Pool) (e : Port) : p.setView e p.views[e] = p := by
  simp [Pool.setView]

/-- A view that sends no frame has no DATA to go on from. -/
theorem viewPast_idle {p : Pool} {e : Port} (h : p.views[e].sending = none) : p.viewPast e = p := by
  unfold Pool.viewPast
  rw [h, Option.map_none]
  exact (congrArg (p.setView e) (by rw [← h])).trans (setView_self p e)

section
variable {s : State} {e : Port} {g : Egress}

/-- Where no DATA is held back, or it stays so, the INJECT view keeps its place. -/
theorem State.putReleased_keeps (h : ∀ v, s.egresses[e].held = some (.data v) → s.egresses[e].current = .inject →
    g.held ≠ none) : s.putReleased e g = s.setEgress e g := by
  unfold State.putReleased
  dsimp only
  split
  · rename_i f v _ hv
    exact if_neg fun ⟨hc, hg⟩ => h v hv hc hg
  · rfl

/-- DATA of INJECT that is on its way takes its view to the next one (R134). -/
theorem State.putReleased_data {v : Byte} (hh : s.egresses[e].held = some (.data v))
    (hc : s.egresses[e].current = .inject) (hg : g.held = none) :
    s.putReleased e g = (s.setEgress e g).setPool (s.pool.viewPast e) := by
  unfold State.putReleased
  simp only [hh, hc, hg, and_self, if_true]
  cases hv : s.pool.views[e].sending with
  | none =>
    rw [viewPast_idle hv]
    rfl
  | some f =>
    unfold Pool.viewPast
    rw [hv]
    rfl

theorem isTerminator_data (v : Byte) : isTerminator (.data v) = false := rfl

theorem Egress.holdsInjectShut_of_ne {c : Character} (h : g.current ≠ .inject) : g.holdsInjectShut c = false := by
  simp [Egress.holdsInjectShut, h]

theorem Egress.holdsInjectShut_data (v : Byte) : g.holdsInjectShut (.data v) = false := by
  simp [Egress.holdsInjectShut, isTerminator_data]

theorem Egress.drainCharacter_holds {c : Character} {ch : Change} (hc : g.change = some ch) (hh : g.held = none)
    (h : isTerminator c = true ∨ ch.deadline = some 0) : g.drainCharacter c = { g with held := some c } := by
  unfold Egress.drainCharacter
  simp only [hc, hh, Option.isSome_none, Bool.false_eq_true, if_false]
  exact if_pos (by simpa using h)

theorem Egress.drainCharacter_sends {c : Character} {ch : Change} (hc : g.change = some ch) (hh : g.held = none)
    (ht : isTerminator c = false) (hd : ch.deadline ≠ some 0) :
    g.drainCharacter c
      = { g with line := some c, change := some { ch with deadline := ch.deadline.map fun n => n - 1 } } := by
  unfold Egress.drainCharacter
  simp only [hc, hh, Option.isSome_none, Bool.false_eq_true, if_false]
  exact if_neg (by simp [ht, hd])

/-- A terminator stays held back under the new change (R40). -/
theorem Egress.drainAfresh_terminator {c : Character} (ch : Change) (hh : g.held = some c)
    (ht : isTerminator c = true) : g.drainAfresh ch = { g with change := some ch } := by
  by_cases hc : g.current = .inject
  · exact Egress.drainAfresh_keeps ch fun d hd => (Egress.holdsInjectShut_iff d).mpr
      ⟨hc, by rw [← Option.some.inj (hh.symm.trans hd)]; exact ht⟩
  · rw [Egress.drainAfresh_sends ch hh (Egress.holdsInjectShut_of_ne hc),
      Egress.drainCharacter_holds (by rfl) (by rfl) (.inl ht), ← hh]

/-- DATA held back for the old deadline is on its way when the deadline starts afresh (R40). -/
theorem Egress.drainAfresh_data {v : Byte} {ch : Change} (hh : g.held = some (.data v))
    (hd : ch.deadline ≠ some 0) :
    g.drainAfresh ch
      = { g with
          held := none, line := some (.data v)
          change := some { ch with deadline := ch.deadline.map fun n => n - 1 } } := by
  rw [Egress.drainAfresh_sends ch hh (Egress.holdsInjectShut_data v),
    Egress.drainCharacter_sends (by rfl) (by rfl) (isTerminator_data v) hd]

end

/-! ### A change taken in DRAINING (R40, R41) -/

section
variable {s : State} {e : Port} {ch : Change}

/-- What each kind of character held back becomes when the drain is withdrawn (R41). -/
theorem State.actOn_withdraws (hs : s.egresses[e].state = .draining) (ht : ch.target = s.egresses[e].current) :
    let g := s.egresses[e]
    let steady := { g with state := .steady, change := none, held := none }
    let ends (v : State) : Prop := s.actOn e ch = v.settle e ch .clean
    (g.held = none → ends (s.setEgress e steady))
    ∧ (∀ c, g.held = some c → g.current ≠ .inject →
        ends (s.setEgress e { steady with line := some c, inside := positionAfter c g.inside }))
    ∧ (∀ c, g.held = some c → g.current = .inject → isTerminator c = true → ends (s.setEgress e steady))
    ∧ ∀ v, g.held = some (.data v) → g.current = .inject →
        ends ((s.setEgress e { steady with line := some (.data v) }).setPool (s.pool.viewPast e)) := by
  intro g steady ends
  have act : s.actOn e ch
      = (s.putReleased e { g.resume with state := .steady, change := none }).settle e ch .clean := by
    rw [State.actOn_draining hs, State.takeDraining_same ht]
  have keeps (h : ∀ c, g.held = some c → g.holdsInjectShut c = true)
      (hd : ∀ v, g.held = some (.data v) → g.current ≠ .inject) : ends (s.setEgress e steady) := by
    show s.actOn e ch = _
    rw [act, Egress.resume_keeps h, State.putReleased_keeps fun v hv hc => absurd hc (hd v hv)]
  refine ⟨fun hh => keeps ?_ ?_, fun c hh hc => ?_, fun c hh hc hterm => keeps ?_ ?_, fun v hh hc => ?_⟩
  · rw [hh]; nofun
  · rw [hh]; nofun
  · show s.actOn e ch = _
    rw [act, Egress.resume_sends hh (Egress.holdsInjectShut_of_ne hc),
      State.putReleased_keeps fun v _ hj => absurd hj hc]
  · intro d hd
    rw [← Option.some.inj (hh.symm.trans hd)]
    exact (Egress.holdsInjectShut_iff c).mpr ⟨hc, hterm⟩
  · intro v hv
    rw [Option.some.inj (hh.symm.trans hv)] at hterm
    cases hterm
  · show s.actOn e ch = _
    rw [act, Egress.resume_sends hh (Egress.holdsInjectShut_data v), State.putReleased_data hh hc rfl]
    rfl

/-- What each kind of character held back becomes under a new change that drains on (R40). -/
theorem State.actOn_drainsAfresh (hs : s.egresses[e].state = .draining) (ht : ch.target ≠ s.egresses[e].current)
    (hp : ch.policy = .clean) :
    let g := s.egresses[e]
    let afresh := { g with change := some ch }
    let sent (v : Byte) : Egress :=
      { afresh with
        held := none, line := some (.data v)
        change := some { ch with deadline := ch.deadline.map fun n => n - 1 } }
    (g.held = none → s.actOn e ch = s.setEgress e afresh)
    ∧ (∀ c, g.held = some c → isTerminator c = true → s.actOn e ch = s.setEgress e afresh)
    ∧ (∀ v, g.held = some (.data v) → ch.deadline ≠ some 0 → g.current ≠ .inject →
        s.actOn e ch = s.setEgress e (sent v))
    ∧ ∀ v, g.held = some (.data v) → ch.deadline ≠ some 0 → g.current = .inject →
        s.actOn e ch = (s.setEgress e (sent v)).setPool (s.pool.viewPast e) := by
  intro g afresh sent
  have act : s.actOn e ch = s.putReleased e (g.drainAfresh ch) := by
    rw [State.actOn_draining hs, State.takeDraining_clean ht hp]
  refine ⟨fun hh => ?_, fun c hh hterm => ?_, fun v hh hd hc => ?_, fun v hh hd hc => ?_⟩
  · rw [act, Egress.drainAfresh_keeps ch (by rw [hh]; nofun)]
    exact State.putReleased_keeps fun v hv => by rw [hh] at hv; cases hv
  · rw [act, Egress.drainAfresh_terminator ch hh hterm]
    exact State.putReleased_keeps fun v hv _ hn => by rw [hn] at hh; cases hh
  · rw [act, Egress.drainAfresh_data hh hd]
    exact State.putReleased_keeps fun _ _ hj => absurd hj hc
  · rw [act, Egress.drainAfresh_data hh hd]
    exact State.putReleased_data hh hc rfl

end

/-- Settles O27: the cases of a change taken in JOINING and in DRAINING. -/
theorem changeInFlightIsSuperseded : Obligations.ChangeInFlightIsSuperseded := by
  intro s e old ch hold g away
  refine ⟨fun h => State.takeChange_supersedes h hold, fun _ => s.together_order _, ?_, s.settle_egress e old _,
    fun hs => ⟨State.actOn_joining hs, ?_⟩, fun hs => ⟨?_, fun hn hp => ?_⟩, State.actOn_withdraws,
    State.actOn_drainsAfresh⟩
  · unfold Egress.selectorPart
    rw [hold]
    rfl
  · simp [Egress.cutBy, hs]
  · simp [Egress.cutBy, hs, and_comm]
  · rw [State.actOn_draining hs, State.takeDraining_force hn hp]

/-! ### The ends of drains and joins (R37 to R39) -/

section
variable {s : State} {e : Port} {ch : Change}

theorem State.endDrain_leaves (hc : s.egresses[e].change = some ch) (c : Character) :
    s.endDrain e c
      = let t := s.setEgress e { s.egresses[e] with line := some c, inside := false, held := none }
        if s.egresses[e].current = .inject then t.together [[(State.injectSent · e)], [(State.leaveFrame · e ch)]]
        else t.leaveFrame e ch := by
  unfold State.endDrain
  simp only [hc]

theorem State.expireDeadline_cuts (hc : s.egresses[e].change = some ch) :
    s.expireDeadline e
      = if s.egresses[e].current = .inject then
          s.together [[(State.injectCut · e)], [(State.cutLeave · e { ch with cut := .deadline })]]
        else s.cutLeave e { ch with cut := .deadline } := by
  unfold State.expireDeadline
  rw [hc]

theorem Egress.terminatorDue_of {g : Egress} {c : Character} (hs : g.state = .draining) (hh : g.held = some c)
    (ht : isTerminator c = true) : g.terminatorDue = true := by
  simp [Egress.terminatorDue, hs, hh, ht]

theorem Egress.drainsByDeadline_of {g : Egress} (hs : g.state = .draining) (hc : g.change = some ch)
    (hd : ch.deadline.isSome) : g.drainsByDeadline = true := by
  simp [Egress.drainsByDeadline, hs, hc, hd]

/-- DRAIN_END takes the terminator that the egress holds back (R37). -/
theorem execDrainEnd_takes {c : Character} (hp : s.phase = .run) (hs : s.egresses[e].state = .draining)
    (hh : s.egresses[e].held = some c) (ht : isTerminator c = true) :
    exec (.drainEnd e) s = .next (s.endDrain e c).arbitrate := by
  show Host.Outcome.next _ = _
  rw [State.event_taken _ _ _ hp (Egress.terminatorDue_of hs hh ht), hh]

/-- DEADLINE_EXPIRY is taken while the drain has a deadline, whatever count remains (R39; log entry 6). -/
theorem execDeadlineExpiry_takes (hp : s.phase = .run) (hs : s.egresses[e].state = .draining)
    (hc : s.egresses[e].change = some ch) (hd : ch.deadline.isSome) :
    exec (.deadlineExpiry e) s = .next (s.expireDeadline e).arbitrate := by
  show Host.Outcome.next _ = _
  rw [State.event_taken _ _ _ hp (Egress.drainsByDeadline_of hs hc hd)]

theorem State.joinReady_eq (hs : s.egresses[e].state = .joining) (hc : s.egresses[e].change = some ch) :
    s.joinReady e = s.betweenFrames e ch.target := by
  unfold State.joinReady
  rw [hs, hc]
  rfl

end

/-- Settles O31: each event is taken or not by its condition, and then does what its unit's operation says. -/
theorem drainsAndJoinsComplete : Obligations.DrainsAndJoinsComplete := by
  intro s e ch hp hc g
  refine ⟨fun c hs hh ht => ?_, fun hs hd => ?_, fun hs hb => ?_, fun hs hb => ?_, isTerminator_iff⟩
  · rw [execDrainEnd_takes hp hs hh ht, State.endDrain_leaves hc]
    refine ⟨fun hj => by rw [if_neg hj], fun hj => ?_⟩
    rw [if_pos hj]
    exact ⟨_, rfl, State.together_order _ _⟩
  · rw [execDeadlineExpiry_takes hp hs hc hd, State.expireDeadline_cuts hc]
    refine ⟨fun hj => by rw [if_neg hj]; rfl, fun hj => ?_, rfl⟩
    rw [if_pos hj]
    exact ⟨_, rfl, State.together_order _ _⟩
  · show Host.Outcome.next _ = _
    rw [State.event_taken _ _ _ hp ((State.joinReady_eq hs hc).trans hb), State.tryJoin_completes hs hc hb]
  · show Host.Outcome.next _ = _
    rw [State.event_not_offered _ _ _ ((State.joinReady_eq hs hc).trans hb)]

/-! ### What a selector sends of its source (R30, R31, R37, R111, R120) -/

section
variable {g : Egress} {src : Source} {c : Character}

theorem Egress.receive_other (h : g.current ≠ src) : g.receive src c = g := if_neg h

theorem Egress.receive_drains (h : g.current = src) (hs : g.state = .draining) :
    g.receive src c = g.drainCharacter c := by
  unfold Egress.receive
  rw [if_pos h, hs]

/-- OFF and JOINING send nothing of any source (R120, R38). -/
theorem Egress.receive_idle (hs : g.state = .off ∨ g.state = .joining) : g.receive src c = g := by
  by_cases h : g.current = src
  · unfold Egress.receive
    rw [if_pos h]
    rcases hs with hs | hs <;> rw [hs]
  · exact Egress.receive_other h

theorem isTerminator_false (hs : c ≠ .shut) (ha : c ≠ .abort) : isTerminator c = false := by
  rw [← Bool.not_eq_true, isTerminator_iff]
  rintro (h | h)
  · exact hs h
  · exact ha h

theorem positionAfter_stays (ho : c ≠ .opn) (hs : c ≠ .shut) (ha : c ≠ .abort) (inside : Bool) :
    positionAfter c inside = inside := by
  cases c with
  | opn => exact absurd rfl ho
  | shut => exact absurd rfl hs
  | abort => exact absurd rfl ha
  | data _ => rfl
  | fill => rfl
  | mark => rfl
  | violation => rfl

end

/-- Settles O32: what a selector sends, state by state. -/
theorem selectorForwardsItsSource : Obligations.SelectorForwardsItsSource := by
  intro g src c
  refine ⟨Egress.receive_other, fun h hs => ?_, Egress.receive_idle,
    fun ch h hs hc hh => ⟨fun ht => ?_, fun hsh hab hd => ?_, fun n hsh hab hd => ?_⟩, fun hs => ?_, fun hs => ?_,
    fun hs hf => ?_, fun hs hf => ?_, fun hs => ?_, fun inside => ⟨rfl, rfl, rfl, fun ho hsh hab => ?_⟩⟩
  · exact Egress.receive_steady hs h
  · rw [Egress.receive_drains h hs]
    exact Egress.drainCharacter_holds hc hh (by rw [isTerminator_iff]; tauto)
  · rw [Egress.receive_drains h hs,
      Egress.drainCharacter_sends hc hh (isTerminator_false hsh hab) (by rw [hd]; nofun), hd, Option.map_none,
      ← hd, ← hc]
  · rw [Egress.receive_drains h hs,
      Egress.drainCharacter_sends hc hh (isTerminator_false hsh hab) (by rw [hd]; simp), hd]
    rfl
  · unfold Egress.newTime
    rw [hs]
  · unfold Egress.newTime
    rw [hs]
  · unfold Egress.newTime
    rw [hs]
    exact if_pos hf
  · unfold Egress.newTime
    rw [hs]
    exact if_neg hf
  · unfold Egress.newTime
    rw [hs]
  · exact positionAfter_stays ho hsh hab inside

end Sys2Proof.Machine
end

section
/-! Entry records and their six bytes (R26, R185, R186). -/

namespace Sys2Proof.Machine

/-! ### Validity (R26) -/

theorem GuardFields.valid_iff (g : GuardFields) (source : Source) :
    g.valid source = true ↔ (∃ p : Port, source = .ingress p ∧ g.standby ≠ p) ∧ g.holdOff ≤ 1000
      ∧ ∀ seconds, g.restore = .revert seconds → 1 ≤ seconds ∧ seconds ≤ 900 := by
  unfold GuardFields.valid
  cases source with
  | ingress p =>
    have hp : (∃ q : Port, Source.ingress p = .ingress q ∧ g.standby ≠ q) ↔ p ≠ g.standby :=
      ⟨fun ⟨_, hq, hne⟩ => by cases hq; exact hne.symm, fun hne => ⟨p, rfl, hne.symm⟩⟩
    rw [hp]
    cases g.restore <;> simp [and_assoc]
  | fill => simp
  | pattern => simp
  | inject => simp
  | hold => simp

theorem Entry.valid_iff (en : Entry) : en.valid = true ↔ ∀ g, en.guard = some g →
    (∃ p : Port, en.source = .ingress p ∧ g.standby ≠ p) ∧ g.holdOff ≤ 1000
      ∧ ∀ seconds, g.restore = .revert seconds → 1 ≤ seconds ∧ seconds ≤ 900 := by
  unfold Entry.valid
  cases en.guard with
  | none => simp
  | some g => simpa using g.valid_iff en.source

/-! ### Source codes (R174) -/

theorem Source.read_code (source : Source) : Source.read source.code = some source := by
  cases source with
  | ingress p => revert p; decide
  | fill => decide
  | pattern => decide
  | inject => decide
  | hold => decide

theorem Source.code_of_read {b : Byte} {source : Source} (h : Source.read b = some source) : source.code = b := by
  have all : ∀ b : Byte, ∀ source ∈ Source.read b, source.code = b := by decide
  exact all b source h

/-! ### Byte 1 (R185) -/

/-- Byte 1 of a record without a guard, and of one with a guard. -/
def bareByte (force : Bool) : Byte := if force then 0x40 else 0

def guardByte (force traffic reverts : Bool) (standby : Port) : Byte :=
  0x80 ||| bareByte force ||| (if traffic then 0x20 else 0) ||| (if reverts then 0x10 else 0) ||| natByte standby.val

theorem guardByte_bits : ∀ (force traffic reverts : Bool) (standby : Port),
    let b := guardByte force traffic reverts standby
    b.getLsbD 7 = true ∧ b.getLsbD 6 = force ∧ b.getLsbD 5 = traffic ∧ b.getLsbD 4 = reverts
      ∧ (b.extractLsb' 0 4).toFin = standby := by decide

theorem guardByte_of_bits : ∀ b : Byte, b.getLsbD 7 = true →
    guardByte (b.getLsbD 6) (b.getLsbD 5) (b.getLsbD 4) (b.extractLsb' 0 4).toFin = b := by decide

theorem bareByte_bits : ∀ force : Bool, let b := bareByte force
    b.getLsbD 7 = false ∧ b.getLsbD 6 = force ∧ b.extractLsb' 0 6 = 0 ∧ ∀ i : Nat, i < 6 → b.getLsbD i = false := by
  decide

theorem bareByte_of_bits : ∀ b : Byte, b.getLsbD 7 = false → b.extractLsb' 0 6 = 0 → bareByte (b.getLsbD 6) = b := by
  decide

/-! ### Two-byte numbers (R174) -/

theorem natHalf_bytes (n : Nat) (h : n < 65536) :
    ∃ hi lo : Byte, natHalf n = [hi, lo] ∧ hi.toNat * 256 + lo.toNat = n := by
  refine ⟨_, _, rfl, ?_⟩
  have hb := halfBytes_toNat (BitVec.ofNat 16 n)
  rw [BitVec.toNat_ofNat, Nat.mod_eq_of_lt h] at hb
  simp only [halfBytes, List.map_cons, List.map_nil, List.cons.injEq, and_true] at hb
  rw [hb.1, hb.2]
  omega

theorem natHalf_readHalf (hi lo : Byte) : natHalf (readHalf hi lo).toNat = [hi, lo] := by
  refine List.map_injective_iff.mpr (fun _ _ => BitVec.eq_of_toNat_eq) ?_
  have := lo.isLt
  unfold natHalf
  rw [BitVec.ofNat_toNat, BitVec.setWidth_eq, halfBytes_toNat, readHalf_toNat]
  simp only [List.map_cons, List.map_nil, List.cons.injEq, and_true]
  omega

/-! ### The record (R185, R186) -/

/-- Whether a restore mode is REVERT, and its wait-to-restore; 0 with STAY. -/
def Restore.reverts : Restore → Bool
  | .stay => false
  | .revert _ => true

def Restore.seconds : Restore → Nat
  | .stay => 0
  | .revert seconds => seconds

/-- The policy and the restore mode that their fields give. -/
def readPolicy (force : Bool) : Policy := if force then .force else .clean

def readRestore (reverts : Bool) (seconds : Nat) : Restore := if reverts then .revert seconds else .stay

theorem readPolicy_force (policy : Policy) : readPolicy (decide (policy = .force)) = policy := by
  cases policy <;> rfl

theorem force_readPolicy (force : Bool) : decide (readPolicy force = .force) = force := by cases force <;> rfl

theorem readRestore_fields (r : Restore) : readRestore r.reverts r.seconds = r := by cases r <;> rfl

theorem encode_bare (source : Source) (policy : Policy) :
    ({ source := source, policy := policy, guard := none } : Entry).encode
      = [source.code, bareByte (decide (policy = .force)), 0, 0, 0, 0] := by
  cases policy <;> rfl

theorem encode_guarded (source : Source) (policy : Policy) (g : GuardFields) :
    ({ source := source, policy := policy, guard := some g } : Entry).encode
      = [source.code, guardByte (decide (policy = .force)) g.requireTraffic g.restore.reverts g.standby]
        ++ natHalf g.holdOff ++ natHalf g.restore.seconds := by
  cases policy <;> cases hr : g.restore <;>
    simp [Entry.encode, guardByte, bareByte, Restore.reverts, Restore.seconds, hr]

section
variable {b0 b1 b2 b3 b4 b5 : Byte} {source : Source}

theorem decode_bare (hs : Source.read b0 = some source) (h7 : b1.getLsbD 7 = false) :
    Entry.decode b0 b1 b2 b3 b4 b5
      = if b1.extractLsb' 0 6 = 0 ∧ b2 = 0 ∧ b3 = 0 ∧ b4 = 0 ∧ b5 = 0 then
          some { source := source, policy := readPolicy (b1.getLsbD 6), guard := none }
        else none := by
  unfold Entry.decode readPolicy
  simp only [hs, h7, Bool.false_eq_true, if_false]

/-- The guard fields that bytes 1 to 5 spell. -/
def readGuard (b1 b2 b3 b4 b5 : Byte) : GuardFields :=
  { standby := (b1.extractLsb' 0 4).toFin, requireTraffic := b1.getLsbD 5, holdOff := (readHalf b2 b3).toNat
    restore := readRestore (b1.getLsbD 4) (readHalf b4 b5).toNat }

theorem decode_guarded (hs : Source.read b0 = some source) (h7 : b1.getLsbD 7 = true) :
    Entry.decode b0 b1 b2 b3 b4 b5
      = if (readGuard b1 b2 b3 b4 b5).valid source = true ∧ (b1.getLsbD 4 = true ∨ (readHalf b4 b5).toNat = 0) then
          some { source := source, policy := readPolicy (b1.getLsbD 6), guard := some (readGuard b1 b2 b3 b4 b5) }
        else none := by
  unfold Entry.decode
  simp only [hs, h7, if_true, Bool.and_eq_true, Bool.or_eq_true, decide_eq_true_eq]
  rfl

/-- The bytes of a valid guard's fields spell it. -/
theorem readGuard_fields {force : Bool} {g : GuardFields} (hh : b2.toNat * 256 + b3.toNat = g.holdOff)
    (hw : b4.toNat * 256 + b5.toNat = g.restore.seconds) :
    readGuard (guardByte force g.requireTraffic g.restore.reverts g.standby) b2 b3 b4 b5 = g := by
  obtain ⟨-, -, h5, h4, hst⟩ := guardByte_bits force g.requireTraffic g.restore.reverts g.standby
  unfold readGuard
  rw [h5, h4, hst, readHalf_toNat, readHalf_toNat, hh, hw, readRestore_fields]

/-- What is read is valid, and is sent back as it was read (R186). -/
theorem decode_valid {en : Entry} (h : Entry.decode b0 b1 b2 b3 b4 b5 = some en) :
    en.valid = true ∧ en.encode = [b0, b1, b2, b3, b4, b5] := by
  cases hs : Source.read b0 with
  | none => simp [Entry.decode, hs] at h
  | some source =>
    have hcode := Source.code_of_read hs
    cases h7 : b1.getLsbD 7 with
    | false =>
      rw [decode_bare hs h7] at h
      split at h
      · rename_i hz
        obtain ⟨hz, rfl, rfl, rfl, rfl⟩ := hz
        cases h
        exact ⟨rfl, by rw [encode_bare, force_readPolicy, hcode, bareByte_of_bits b1 h7 hz]⟩
      · cases h
    | true =>
      rw [decode_guarded hs h7] at h
      split at h
      · rename_i hv
        obtain ⟨hv, hw⟩ := hv
        cases h
        have hreverts : (readGuard b1 b2 b3 b4 b5).restore.reverts = b1.getLsbD 4 := by
          unfold readGuard
          cases b1.getLsbD 4 <;> rfl
        have hseconds : (readGuard b1 b2 b3 b4 b5).restore.seconds = (readHalf b4 b5).toNat := by
          unfold readGuard
          rcases hw with hw | hw
          · rw [hw]
            rfl
          · rw [hw]
            cases b1.getLsbD 4 <;> rfl
        refine ⟨hv, ?_⟩
        rw [encode_guarded, force_readPolicy, hcode, hreverts, hseconds]
        show [b0, guardByte _ (b1.getLsbD 5) _ (b1.extractLsb' 0 4).toFin] ++ natHalf (readHalf b2 b3).toNat ++ _ = _
        rw [guardByte_of_bits b1 h7, natHalf_readHalf, natHalf_readHalf]
        rfl
      · cases h

/-- Byte 0 is the source code (R185). -/
theorem Source.code_layout (source : Source) :
    (∀ p : Port, source = .ingress p → source.code.toNat = p.val) ∧ (source = .fill → source.code = 16)
      ∧ (source = .pattern → source.code = 17) ∧ (source = .inject → source.code = 18)
      ∧ (source = .hold → source.code = 19) := by
  refine ⟨?_, ?_, ?_, ?_, ?_⟩
  · rintro p rfl
    exact Nat.mod_eq_of_lt (by omega)
  all_goals
    rintro rfl
    rfl

end

/-- A record without a guard: its bytes, and what they are read as. -/
theorem bare_roundTrip (source : Source) (policy : Policy) :
    let en : Entry := { source := source, policy := policy, guard := none }
    let b1 := bareByte (decide (policy = .force))
    EntryLayout en source.code b1 0 0 0 0 ∧ Entry.decode source.code b1 0 0 0 0 = some en := by
  intro en b1
  obtain ⟨h7, h6, hz, hbits⟩ := bareByte_bits (decide (policy = .force))
  obtain ⟨hi, hf, hp, hj, hh⟩ := source.code_layout
  refine ⟨⟨hi, hf, hp, hj, hh, h7, h6, fun _ => ⟨hbits, rfl, rfl, rfl, rfl⟩, nofun⟩, ?_⟩
  rw [decode_bare source.read_code h7, if_pos ⟨hz, rfl, rfl, rfl, rfl⟩, h6, readPolicy_force]

/-- A record with a guard: its bytes, and what they are read as. -/
theorem guarded_roundTrip (source : Source) (policy : Policy) (g : GuardFields) (hv : g.valid source = true)
    {b2 b3 b4 b5 : Byte} (hh : b2.toNat * 256 + b3.toNat = g.holdOff)
    (hw : b4.toNat * 256 + b5.toNat = g.restore.seconds) :
    let en : Entry := { source := source, policy := policy, guard := some g }
    let b1 := guardByte (decide (policy = .force)) g.requireTraffic g.restore.reverts g.standby
    EntryLayout en source.code b1 b2 b3 b4 b5 ∧ Entry.decode source.code b1 b2 b3 b4 b5 = some en := by
  intro en b1
  obtain ⟨h7, h6, h5, h4, hst⟩ :=
    guardByte_bits (decide (policy = .force)) g.requireTraffic g.restore.reverts g.standby
  obtain ⟨hi, hf, hp, hj, hhold⟩ := source.code_layout
  refine ⟨⟨hi, hf, hp, hj, hhold, h7, h6, nofun, ?_⟩, ?_⟩
  · rintro _ ⟨⟩
    refine ⟨h5, h4.trans ?_, congrArg Fin.val hst, hh, hw.trans ?_⟩
    · cases g.restore <;> rfl
    · cases g.restore <;> rfl
  · rw [decode_guarded source.read_code h7, readGuard_fields hh hw, if_pos, h6, readPolicy_force]
    refine ⟨hv, ?_⟩
    rw [h4, readHalf_toNat, hw]
    cases g.restore with
    | stay => exact .inr rfl
    | revert seconds => exact .inl rfl

/-- Settles O34: a record without a guard and one with a guard, written and read. -/
theorem entryRecordsRoundTrip : Obligations.EntryRecordsRoundTrip := by
  refine ⟨Entry.valid_iff, ?_, fun b0 b1 b2 b3 b4 b5 en => decode_valid⟩
  rintro ⟨source, policy, _ | g⟩ hv
  · exact ⟨_, _, _, _, _, _, encode_bare source policy, bare_roundTrip source policy⟩
  · obtain ⟨-, hoff, hrev⟩ := (g.valid_iff source).mp hv
    have hwait : g.restore.seconds < 65536 := by
      cases hr : g.restore with
      | stay => decide
      | revert seconds =>
        have := (hrev seconds hr).2
        show seconds < 65536
        omega
    obtain ⟨b2, b3, e23, h23⟩ := natHalf_bytes g.holdOff (by omega)
    obtain ⟨b4, b5, e45, h45⟩ := natHalf_bytes g.restore.seconds hwait
    refine ⟨_, _, b2, b3, b4, b5, ?_, guarded_roundTrip source policy g hv h23 h45⟩
    rw [encode_guarded, e23, e45]
    rfl

end Sys2Proof.Machine
end

section
/-! CONNECT and MAP_READ (R45, R46, R50, R55, R180). -/

namespace Sys2Proof.Machine

/-! ### CONNECT (R45, R46, R55) -/

@[simp] theorem setGuard_setGuard (s : State) (e : Port) (r q : Option Guard) :
    (s.setGuard e r).setGuard e q = s.setGuard e q := by
  simp [State.setGuard]

section
variable {s : State} {e : Port} {f : GuardFields}

/-- An entry without a guard leaves no guard record (R52, R55). -/
theorem State.newGuard_init_none (h : s.egresses[e].entry.guard = none) :
    (s.newGuard e .watching).guardInit e = s.setGuard e none := by
  have hn : s.newGuard e .watching = s.setGuard e none := by
    unfold State.newGuard
    rw [h]
  unfold State.guardInit
  rw [hn, setGuard_same]

/-- A guard record initialised: WATCHING or HOLDOFF by the primary's grade (R55). -/
theorem State.newGuard_init (h : s.egresses[e].entry.guard = some f) :
    (s.newGuard e .watching).guardInit e
      = (s.setGuard e (some
          { ident := s.guardSerial
            state := if s.primaryWell e f then .watching else .holdoff f.holdOffCt
            last := none })).setSerial (s.guardSerial + 1) := by
  let r : Guard := { ident := s.guardSerial, state := .watching, last := none }
  have hn : s.newGuard e .watching = (s.setGuard e (some r)).setSerial (s.guardSerial + 1) := by
    unfold State.newGuard
    rw [h]
  have hr : ((s.setGuard e (some r)).setSerial (s.guardSerial + 1)).guards[e] = some r := setGuard_same s e (some r)
  have hf : ((s.setGuard e (some r)).setSerial (s.guardSerial + 1)).egresses[e].entry.guard = some f := h
  unfold State.guardInit
  rw [hn, hr, hf]
  show State.guardTo _ e _ = _
  rw [State.guardTo_some _ e r _ (setGuard_same _ e _)]
  exact congrArg (State.setSerial · (s.guardSerial + 1))
    ((setGuard_setGuard _ e _ _).trans (setGuard_setGuard _ e _ _))

/-- After a change the guard of its egress expires at once where its hold-off is 0, and else nothing comes of it
(R55). -/
theorem State.takeChange_holdOffIfZero {r : Guard} (ch : Change) (hr : s.guards[e] = some r)
    (hf : s.egresses[e].entry.guard = some f) :
    (s.takeChange e ch).holdOffIfZero e
      = if r.state = .holdoff 0 then (s.takeChange e ch).holdOffExpired e f else s.takeChange e ch := by
  have hguard := (s.takeChange_changeReach e ch).guard
  rw [hr, Option.map_some] at hguard
  obtain ⟨q, hq, hstate⟩ := Option.map_eq_some_iff.mp hguard
  have hentry : (s.takeChange e ch).egresses[e].entry.guard = some f := by
    rw [(s.takeChange_onlyAt e ch).entry, hf]
  unfold State.holdOffIfZero
  rw [hq, hentry]
  simp only [hstate]

theorem State.takeChange_noGuard (ch : Change) (hr : s.guards[e] = none) :
    (s.takeChange e ch).holdOffIfZero e = s.takeChange e ch := by
  have hguard := (s.takeChange_changeReach e ch).guard
  rw [hr, Option.map_none] at hguard
  unfold State.holdOffIfZero
  rw [Option.map_eq_none_iff.mp hguard]

/-- The change a CONNECT hands to the selector (R46). -/
def connectChange (entry : Entry) (deadline : Nat) (notify : Bool) (tag : Byte) : Change :=
  { target := entry.source, policy := entry.policy, deadline := if deadline = 0 then none else some deadline
    requester := .connect tag notify, cut := .none }

/-- CONNECT of an entry without a guard (R46). -/
theorem State.connect_bare {entry : Entry} (h : entry.guard = none) (deadline : Nat) (notify : Bool) (tag : Byte) :
    s.connect e entry deadline notify tag
      = ((s.setEgress e { s.egresses[e] with entry := entry }).setGuard e none).takeChange e
          (connectChange entry deadline notify tag) := by
  show State.holdOffIfZero (State.takeChange _ e _) e = _
  rw [State.newGuard_init_none (by rw [setEgress_same]; exact h)]
  exact State.takeChange_noGuard _ (setGuard_same _ e none)

/-- CONNECT of an entry with a guard (R46, R55). -/
theorem State.connect_guarded {entry : Entry} (h : entry.guard = some f) (deadline : Nat) (notify : Bool)
    (tag : Byte) :
    let t := s.setEgress e { s.egresses[e] with entry := entry }
    let r : Guard :=
      { ident := s.guardSerial
        state := if t.primaryWell e f then .watching else .holdoff (f.holdOff * 1000000), last := none }
    let v := ((t.setGuard e (some r)).setSerial (s.guardSerial + 1)).takeChange e
      (connectChange entry deadline notify tag)
    s.connect e entry deadline notify tag = if r.state = .holdoff 0 then v.holdOffExpired e f else v := by
  intro t r v
  have hf : t.egresses[e].entry.guard = some f := by rw [setEgress_same]; exact h
  show State.holdOffIfZero (State.takeChange _ e _) e = _
  rw [State.newGuard_init hf, f.holdOffCt_eq]
  exact State.takeChange_holdOffIfZero _ (setGuard_same t e (some r)) hf

end

theorem readFlag_below (n : Byte) (h : n.toNat < 2) : readFlag n = some (decide (n = 1)) := by
  revert n; decide

theorem connectRequest_refused {m : Message} {s : State} {e b0 b1 b2 b3 b4 b5 dh dl n : Byte}
    (hm : m.payload = [e, b0, b1, b2, b3, b4, b5, dh, dl, n])
    (h : 16 ≤ e.toNat ∨ Entry.decode b0 b1 b2 b3 b4 b5 = none ∨ 2 ≤ n.toNat) :
    connectRequest m s = (Answer.refuse .badField, s) := by
  unfold connectRequest
  simp only [hm]
  split
  · rename_i he hd hn
    rcases h with h | h | h
    · rw [readBelow_above 16 e h] at he
      cases he
    · rw [h] at hd
      cases hd
    · rw [readFlag_above n h] at hn
      cases hn
  · rfl

theorem connectRequest_taken {m : Message} {s : State} {p : Port} {entry : Entry} {b0 b1 b2 b3 b4 b5 dh dl n : Byte}
    (hm : m.payload = [natByte p.val, b0, b1, b2, b3, b4, b5, dh, dl, n])
    (hd : Entry.decode b0 b1 b2 b3 b4 b5 = some entry) (hn : n.toNat < 2) :
    connectRequest m s
      = if s.claims[p].isSome then (Answer.refuse .egressClaimed, s)
        else (Answer.ok [], s.connect p entry (readHalf dh dl).toNat (decide (n = 1)) m.tag) := by
  unfold connectRequest
  simp only [hm, readBelow_port, hd, readFlag_below n hn]

/-- Settles O30: the request is refused, or its entry is in force, with or without a guard. -/
theorem connectReplacesEntryAndStartsChange : Obligations.ConnectReplacesEntryAndStartsChange := by
  intro s m rest e b0 b1 b2 b3 b4 b5 dh dl n hcan hm
  have run : exec .connect s
      = .next ((connectRequest m (s.taken rest)).2.replied m (connectRequest m (s.taken rest)).1) :=
    congrArg Host.Outcome.next (s.execute_kind m rest 0x20 connectRequest hcan)
  refine ⟨fun hbad => by rw [run, connectRequest_refused hm hbad], fun p entry he hd hn => ?_⟩
  subst he
  rw [run, connectRequest_taken hm hd hn, show (s.taken rest).claims = s.claims from rfl]
  refine ⟨fun hc => by rw [if_pos hc], fun hc => ?_⟩
  intro t ch
  rw [if_neg (by rw [hc]; nofun)]
  refine ⟨fun hg => by rw [State.connect_bare hg]; rfl, fun f hg => ?_⟩
  intro u
  rw [State.connect_guarded hg]
  refine ⟨fun hw => ?_, fun hw hz => ?_⟩
  · rw [if_neg]
    · rfl
    · show ¬ (if t.primaryWell p f then _ else _) = _
      rcases hw with hw | hw
      · rw [if_pos hw]
        nofun
      · split
        · nofun
        · rw [GuardState.holdoff.injEq]
          omega
  · rw [if_pos]
    · rfl
    · show (if t.primaryWell p f then _ else _) = _
      rw [hw, hz]
      rfl

/-! ### MAP_READ (R50, R180) -/

theorem Entry.encode_length (en : Entry) : en.encode.length = 6 := by
  obtain ⟨source, policy, _ | g⟩ := en
  · rw [encode_bare]
    rfl
  · rw [encode_guarded]
    rfl

theorem State.mapRecord_length (s : State) (e : Port) : (s.mapRecord e).length = 15 := by
  unfold State.mapRecord
  simp only [List.length_append, Entry.encode_length]
  rfl

/-- The time left on a guard timer (R180; log entry 31). -/
theorem timerLeft_eq (r : Option Guard) :
    ((r.bind fun r => r.state.timer).map ctToMsUp).getD 0
      = match r.map Guard.state with
        | some (.holdoff left) => max 1 ((left + 99999) / 100000)
        | some (.restoreWait left) => max 1 ((left + 99999) / 100000)
        | _ => 0 := by
  cases r with
  | none => rfl
  | some r =>
    rw [Option.map_some, Option.bind_some]
    cases r.state with
    | holdoff left => exact ctToMsUp_max left
    | restoreWait left => exact ctToMsUp_max left
    | watching => rfl
    | primaryDown => rfl
    | onStandby => rfl
    | locked => rfl
    | forced => rfl
    | suspended sel o => rfl
    | suspendedFired => rfl

theorem lastSwitchByte_some (l : LastSwitch) :
    lastSwitchByte (some l)
      = l.outcome.code + (if l.target = .standby then 4 else 0) + (if l.sourceDown then 8 else 0) := by
  unfold lastSwitchByte outcomeByte
  simp only [decide_eq_true_eq]

theorem natThree_toNat (n : Nat) (h : n < 16777216) :
    (natThree n).map BitVec.toNat = [n / 65536, n / 256 % 256, n % 256] := by
  simp only [natThree, List.map_cons, List.map_nil, BitVec.toNat_ofNat, List.cons.injEq, and_true]
  omega

/-- The fields of one record (R180). -/
theorem State.mapRecord_fields (s : State) (e : Port) :
    s.mapRecord e
      = s.egresses[e].entry.encode
        ++ [s.egresses[e].conditionCode, s.egresses[e].current.code,
          (match s.egresses[e].change with
            | none => 0xFF
            | some ch => ch.target.code),
          (match s.claims[e] with
            | none => 0
            | some id => id),
          (match s.guards[e] with
            | none => 0xFF
            | some r => r.state.code)]
        ++ natThree (match s.guards[e].map Guard.state with
            | some (.holdoff left) => max 1 ((left + 99999) / 100000)
            | some (.restoreWait left) => max 1 ((left + 99999) / 100000)
            | _ => 0)
        ++ [match s.guards[e].bind Guard.last with
            | none => 0xFF
            | some l => l.outcome.code + (if l.target = .standby then 4 else 0)
                + (if l.sourceDown then 8 else 0)] := by
  have hchange : (s.egresses[e].change.map fun c => c.target.code).getD absent = match s.egresses[e].change with
      | none => 0xFF
      | some ch => ch.target.code := by cases s.egresses[e].change <;> rfl
  have hguard : (s.guards[e].map fun r => r.state.code).getD absent = match s.guards[e] with
      | none => 0xFF
      | some r => r.state.code := by cases s.guards[e] <;> rfl
  have hclaim : s.claims[e].getD 0 = match s.claims[e] with
      | none => 0
      | some id => id := by cases s.claims[e] <;> rfl
  have hlast : lastSwitchByte (s.guards[e].bind fun r => r.last) = match s.guards[e].bind Guard.last with
      | none => 0xFF
      | some l => l.outcome.code + (if l.target = .standby then 4 else 0) + (if l.sourceDown then 8 else 0) := by
    show lastSwitchByte (s.guards[e].bind Guard.last) = _
    cases s.guards[e].bind Guard.last with
    | none => rfl
    | some l => exact lastSwitchByte_some l
  unfold State.mapRecord
  simp only [timerLeft_eq, hlast, hclaim, hchange, hguard]

/-- Settles O33: the request answers with the records and leaves the state; their fields, lengths and codes. -/
theorem mapReadReportsAndChangesNothing : Obligations.MapReadReportsAndChangesNothing := by
  intro s m rest hcan
  have run : exec .mapRead s
      = .next ((mapReadRequest m (s.taken rest)).2.replied m (mapReadRequest m (s.taken rest)).1) :=
    congrArg Host.Outcome.next (s.execute_kind m rest 0x21 mapReadRequest hcan)
  refine ⟨fun hm => ?_, fun hm => ?_, fun e => ⟨s.mapRecord_length e, s.mapRecord_fields e⟩, ?_, fun g => ?_,
    fun p => Nat.mod_eq_of_lt (by omega), rfl, rfl, fun n sel => ?_, natThree_toNat⟩
  · rw [run]
    unfold mapReadRequest
    rw [hm]
    rfl
  · rw [run]
    unfold mapReadRequest
    cases hp : m.payload with
    | nil => exact absurd hp hm
    | cons b bs => rfl
  · rw [List.length_flatMap, List.map_congr_left fun e _ => s.mapRecord_length e]
    rfl
  · unfold Egress.conditionCode
    cases g.state <;> rfl
  · cases sel <;> rfl

end Sys2Proof.Machine
end

section
/-! A hardware reset (R167), what a reset takes no notice of, and the state after one. -/

namespace Sys2Proof.Machine

/-! ### GRDY as a reset begins (R97, R99) -/

/-- Pulled low by the part, the line follows on sound wiring. -/
theorem groupTo_unset_level (s : State) : LevelFollowsThePull s s.draws (s.groupTo .unset) := by
  have hhigh : (s.groupTo .unset).group.high
      = (s.group.high && !((!s.group.driveLow && s.group.high) && Config.grdySound s.draws)) := rfl
  refine ⟨fun hd hh => ?_, fun h => ?_⟩
  · rw [hhigh, hd, hh]
    simp
  · rw [hhigh]
    rcases h with h | h <;> simp [h]

theorem groupTo_senses (s : State) (m : Membership) : (s.groupTo m).senses = s.senses := by
  unfold State.groupTo
  split <;> rfl

/-! ### A hardware reset (R167) -/

theorem blocksAtReset : BlocksAtReset :=
  ⟨fun _ => rfl, rfl, rfl, rfl, rfl, rfl, rfl, fun _ => rfl⟩

theorem Phase.resetCause_eq (phase : Phase) (cause : HardwareCause) :
    phase.resetCause cause = if phase = .hardwareReset .power then .power else cause := by
  match phase with
  | .run => rfl
  | .restart _ => rfl
  | .hardwareReset .power => rfl
  | .hardwareReset .pin => rfl

section
variable (s : State) (phase : Phase) (tep : Bool)

theorem enterReset_port (p : Port) : (s.enterReset phase tep).ports[p] = Ingress.afterReset s.ports[p].sd := by
  have hp := blocksReset_port (s.groupTo .unset) phase p
  rw [(s.groupTo_sameMap .unset).ports] at hp
  exact hp

theorem enterReset_sense (n : SenseId) :
    (s.enterReset phase tep).senses[n] = { level := s.senses[n].level, qualifier := .low } := by
  have hn : (s.enterReset phase tep).senses[n] = { level := (s.groupTo .unset).senses[n].level, qualifier := .low } :=
    Vector.getElem_map _ n.isLt
  rw [groupTo_senses] at hn
  exact hn

/-- No transmit enable is asserted, and its output stands by the strap (R121, R123). -/
theorem enterReset_txen (hp : phase ≠ .run) (p : Port) :
    (s.enterReset phase tep).txenAsserted p = false ∧ (s.enterReset phase tep).txenHigh p = tep := by
  have hphase : (s.enterReset phase tep).phase = phase := rfl
  have hasserted : (s.enterReset phase tep).txenAsserted p = false := by
    unfold State.txenAsserted
    rw [hphase]
    cases phase with
    | run => exact absurd rfl hp
    | hardwareReset _ => rfl
    | restart _ => rfl
  refine ⟨hasserted, ?_⟩
  unfold State.txenHigh
  rw [hasserted, hphase]
  cases phase with
  | run => exact absurd rfl hp
  | hardwareReset _ => exact Bool.false_xor tep
  | restart _ => exact Bool.false_xor tep

end

/-! ### What a reset takes no notice of (log entry 29) -/

theorem State.execute_in_reset (s : State) (accepts : Byte → Bool) (body : Message → State → Answer × State)
    (hp : s.phase ≠ .run) : s.execute accepts body = s := by
  unfold State.execute
  split
  · rfl
  · exact s.event_in_reset _ _ hp

/-- From `s` to `t` no more has changed than the level of an input pin (log entry 29). -/
structure State.PinsOnly (s t : State) : Prop where
  frame : t = { s with ports := t.ports, senses := t.senses, group := { s.group with high := t.group.high } }
  ports : ∀ p : Port, t.ports[p] = { s.ports[p] with sd := t.ports[p].sd }
  senses : ∀ n : SenseId, t.senses[n] = { s.senses[n] with level := t.senses[n].level }

theorem State.PinsOnly.refl (s : State) : s.PinsOnly s := ⟨rfl, fun _ => rfl, fun _ => rfl⟩

theorem State.trackSd_pins (s : State) (p : Port) (level : Bool) : s.PinsOnly (s.trackSd p level) := by
  refine ⟨rfl, fun q => ?_, fun _ => rfl⟩
  unfold State.trackSd
  by_cases hq : q = p
  · rw [hq, setPort_same]
  · rw [setPort_other s p _ q hq]

theorem State.trackSense_pins (s : State) (n : SenseId) (level : Bool) : s.PinsOnly (s.trackSense n level) := by
  refine ⟨rfl, fun _ => rfl, fun k => ?_⟩
  unfold State.trackSense
  by_cases hk : k = n
  · rw [hk, setSense_same]
  · rw [setSense_other s n _ k hk]

theorem State.trackGrdy_pins (s : State) (high : Bool) : s.PinsOnly (s.setGroup { s.group with high := high }) :=
  ⟨rfl, fun _ => rfl, fun _ => rfl⟩

section
variable {s : State} (hp : s.phase ≠ .run)
include hp

theorem execSdDeassert_in_reset (p : Port) : execSdDeassert p s = .next (s.trackSd p false) := by
  unfold execSdDeassert
  split
  · exact absurd ‹_› hp
  · rfl
  · rfl

theorem execSdAssert_in_reset (p : Port) : execSdAssert p s = .next (s.trackSd p true) := by
  unfold execSdAssert
  split
  · exact absurd ‹_› hp
  · rfl
  · rfl

theorem execSenseRise_in_reset (n : SenseId) : execSenseRise n s = .next (s.trackSense n true) := by
  unfold execSenseRise
  split
  · exact absurd ‹_› hp
  · rfl
  · rfl

theorem execSenseFall_in_reset (n : SenseId) : execSenseFall n s = .next (s.trackSense n false) := by
  unfold execSenseFall
  split
  · exact absurd ‹_› hp
  · rfl
  · rfl

theorem execGrdyLevelChange_in_reset (high : Bool) :
    execGrdyLevelChange high s = .next (s.setGroup { s.group with high := high }) := by
  unfold execGrdyLevelChange
  split
  · exact absurd ‹_› hp
  · rfl
  · rfl

theorem execSendComplete_in_reset : execSendComplete s = .next s := by
  unfold execSendComplete
  split
  · exact absurd ‹_› hp
  · rfl

/-- During a reset a command other than the resets and their ends notes the level of a pin, or does nothing. -/
theorem exec_in_reset (c : Instr) (h1 : ∀ cause tep, c ≠ .hardwareReset cause tep) (h2 : ∀ i, c ≠ .hardwareResetEnd i)
    (h3 : ∀ straps, c ≠ .restartEnd straps) : ∃ t : State, exec c s = .next t ∧ s.PinsOnly t := by
  cases c
  case hardwareReset cause tep => exact absurd rfl (h1 cause tep)
  case hardwareResetEnd i => exact absurd rfl (h2 i)
  case restartEnd straps => exact absurd rfl (h3 straps)
  case sdDeassert p => exact ⟨_, execSdDeassert_in_reset hp p, s.trackSd_pins p _⟩
  case sdAssert p => exact ⟨_, execSdAssert_in_reset hp p, s.trackSd_pins p _⟩
  case senseRise n => exact ⟨_, execSenseRise_in_reset hp n, s.trackSense_pins n _⟩
  case senseFall n => exact ⟨_, execSenseFall_in_reset hp n, s.trackSense_pins n _⟩
  case grdyLevelChange high => exact ⟨_, execGrdyLevelChange_in_reset hp high, s.trackGrdy_pins high⟩
  case sendComplete => exact ⟨_, execSendComplete_in_reset hp, .refl s⟩
  case unknownRequestKind | echo | status | restart | setFraming | setPort | portStatus | connect | mapRead
      | guardControl | planLoad | planArm | planFire | planCancel | planRead | planRelease | groupConfig | groupStatus
      | patternConfig | injectStart | injectCont | injectAbort | poolStatus | conditionsRead | conditionsClear
      | subscribe =>
    exact ⟨_, congrArg Host.Outcome.next (s.execute_in_reset _ _ hp), .refl s⟩
  all_goals exact ⟨_, congrArg Host.Outcome.next (s.event_in_reset _ _ hp), .refl s⟩

end

/-- Settles O4: the blocks as HARDWARE_RESET leaves them, and every other command in a reset. -/
theorem hardwareResetTakesEffectAtOnce : Obligations.HardwareResetTakesEffectAtOnce := by
  refine ⟨blocksAtReset, fun cause tep s => ⟨_, rfl, ?_⟩, fun c s hp h1 h2 h3 => ?_⟩
  · refine ⟨congrArg Phase.hardwareReset (s.phase.resetCause_eq cause), rfl, rfl, rfl, enterReset_port s _ tep,
      fun e => ⟨Vector.getElem_replicate e.isLt, Vector.getElem_replicate e.isLt,
        Vector.getElem_replicate e.isLt⟩, fun k => Vector.getElem_replicate k.isLt, rfl, rfl, rfl, rfl, rfl, rfl,
      groupTo_unset_level s, enterReset_sense s _ tep, rfl, rfl, fun c => Vector.getElem_replicate c.isLt, rfl, rfl,
      enterReset_txen s _ tep (by nofun)⟩
  · obtain ⟨t, ht, hpins⟩ := exec_in_reset hp c h1 h2 h3
    exact ⟨t, ht, hpins.frame, hpins.ports, hpins.senses⟩

/-! ### The state after reset (R28, R70, R99, R126, R139, R148, R166, R167) -/

theorem reset_cond (c : CondId) : State.reset.conds[c] = Condition.afterReset := Vector.getElem_replicate c.isLt

theorem reset_guard (e : Port) : State.reset.guards[e] = none := Vector.getElem_replicate e.isLt

theorem reset_claim (e : Port) : State.reset.claims[e] = none := Vector.getElem_replicate e.isLt

theorem reset_plan (k : SlotId) : State.reset.plans[k] = none := Vector.getElem_replicate k.isLt

theorem reset_egress (e : Port) : State.reset.egresses[e] = Egress.afterReset := Vector.getElem_replicate e.isLt

theorem reset_port (p : Port) : State.reset.ports[p] = Ingress.afterReset false := Vector.getElem_replicate p.isLt

theorem reset_storesBounded : State.reset.StoresBounded := by
  unfold State.StoresBounded
  decide

theorem reset_poolConserved : State.reset.PoolConserved := by
  unfold State.PoolConserved
  decide

theorem reset_streamsWf : State.reset.StreamsWf := by
  refine State.reset.streamsWf_iff.mpr ⟨fun p => ?_, nofun, fun e => ?_⟩
  · rw [reset_port]
    exact ⟨by decide, fun _ => ⟨rfl, rfl, rfl, rfl⟩, nofun, nofun⟩
  · unfold State.StreamOk
    rw [reset_egress]
    exact (Egress.ok_off rfl).mpr ⟨rfl, rfl, rfl, rfl, rfl⟩

theorem reset_claimsHeld : State.reset.ClaimsHeld := by
  refine ⟨fun j k p q hj => ?_, fun k p hk => ?_, fun e id he => ?_⟩
  · rw [reset_plan] at hj
    cases hj
  · rw [reset_plan] at hk
    cases hk
  · rw [reset_claim] at he
    cases he

theorem reset_entriesValid : State.reset.EntriesValid := by
  refine ⟨fun e => ?_, fun k p hk => ?_⟩
  · rw [reset_egress]
    rfl
  · rw [reset_plan] at hk
    cases hk

/-- Settles O60: every block as after reset, one property after the other. -/
theorem resetHasEveryKeptProperty : Obligations.ResetHasEveryKeptProperty := by
  refine ⟨fun c => ?_, reset_storesBounded, fun c => ?_, reset_poolConserved, fun e => ?_, reset_entriesValid,
    reset_claimsHeld, reset_streamsWf, fun p hp => ?_, .inl rfl⟩
  · rw [reset_cond]
    decide
  · rw [reset_cond]
    rfl
  · rw [reset_guard, reset_egress]
    rfl
  · rw [reset_port] at hp
    cases hp

end Sys2Proof.Machine
end

section
/-! What each operation leaves of the entry records, the guard records and the plans (R26, R52). -/

namespace Sys2Proof.Machine

/-- From `s` to `t` every entry record and every plan stays, and a guard record stands where one stood. -/
structure State.MapStays (s t : State) : Prop where
  entry : ∀ e : Port, t.egresses[e].entry = s.egresses[e].entry
  guard : ∀ e : Port, t.guards[e].isSome = s.guards[e].isSome
  plans : t.plans = s.plans

section
variable {s t u : State}

theorem State.MapStays.trans (h : s.MapStays t) (k : t.MapStays u) : s.MapStays u :=
  ⟨fun e => (k.entry e).trans (h.entry e), fun e => (k.guard e).trans (h.guard e), k.plans.trans h.plans⟩

theorem State.MapStays.of_same (he : t.egresses = s.egresses) (hg : t.guards = s.guards) (hp : t.plans = s.plans) :
    s.MapStays t :=
  ⟨fun _ => by rw [he], fun _ => by rw [hg], hp⟩

theorem State.MapStays.refl (s : State) : s.MapStays s := .of_same rfl rfl rfl

/-! ### The shared operations -/

theorem State.arbitrate_mapStays (s : State) : s.MapStays s.arbitrate := by
  obtain ⟨_, _, _, h⟩ := s.arbitrate_touches
  rw [h]
  exact .of_same rfl rfl rfl

theorem State.notify_mapStays (s : State) (b : NoticeBody) : s.MapStays (s.notify b) := by
  obtain ⟨_, _, _, h⟩ := s.notify_touches b
  rw [h]
  exact .of_same rfl rfl rfl

theorem State.occur_mapStays (s : State) (c : CondId) : s.MapStays (s.occur c) := by
  obtain ⟨_, _, _, h⟩ := s.occur_touches c
  rw [h]
  exact .of_same rfl rfl rfl

theorem State.setDraws_mapStays (s : State) (n : Nat) : s.MapStays (s.setDraws n) := .of_same rfl rfl rfl

theorem State.together_mapStays (s : State) (blocks : List (List (State → State)))
    (hf : ∀ b ∈ blocks, ∀ f ∈ b, ∀ t : State, t.MapStays (f t)) : s.MapStays (s.together blocks) :=
  State.together_keeps s.MapStays (fun t n h => h.trans (t.setDraws_mapStays n)) s blocks
    (fun b hb f hm t h => h.trans (hf b hb f hm t)) (.refl s)

theorem State.foldl_mapStays {α : Type} (xs : List α) (f : State → α → State)
    (hf : ∀ t x, State.MapStays t (f t x)) (s : State) : s.MapStays (xs.foldl f s) := by
  induction xs generalizing s with
  | nil => exact .refl s
  | cons x xs ih => exact (hf s x).trans (ih (f s x))

theorem State.setLink_mapStays (s : State) (l : Link) : s.MapStays (s.setLink l) := .of_same rfl rfl rfl

theorem State.setGroup_mapStays (s : State) (g : Group) : s.MapStays (s.setGroup g) := .of_same rfl rfl rfl

theorem State.setPort_mapStays (s : State) (p : Port) (g : Ingress) : s.MapStays (s.setPort p g) :=
  .of_same rfl rfl rfl

theorem State.setClaim_mapStays (s : State) (e : Port) (c : Option Byte) : s.MapStays (s.setClaim e c) :=
  .of_same rfl rfl rfl

theorem State.setPattern_mapStays (s : State) (g : Pattern) : s.MapStays (s.setPattern g) := .of_same rfl rfl rfl

theorem State.setPool_mapStays (s : State) (p : Pool) : s.MapStays (s.setPool p) := .of_same rfl rfl rfl

theorem State.setSense_mapStays (s : State) (n : SenseId) (k : Sense) : s.MapStays (s.setSense n k) :=
  .of_same rfl rfl rfl

theorem State.setEgress_mapStays (s : State) (e : Port) (g : Egress) (hg : g.entry = s.egresses[e].entry) :
    s.MapStays (s.setEgress e g) := by
  refine ⟨fun j => ?_, fun _ => rfl, rfl⟩
  by_cases hj : j = e
  · rw [hj, setEgress_same, hg]
  · rw [setEgress_other s e g j hj]

/-- A guard record written where one stands. -/
theorem State.setGuard_mapStays (s : State) (e : Port) (r : Option Guard) (hr : r.isSome = s.guards[e].isSome) :
    s.MapStays (s.setGuard e r) := by
  refine ⟨fun _ => rfl, fun j => ?_, rfl⟩
  by_cases hj : j = e
  · rw [hj, setGuard_same, hr]
  · rw [setGuard_other s e r j hj]

theorem State.guardTo_mapStays (s : State) (e : Port) (g : GuardState) : s.MapStays (s.guardTo e g) :=
  s.setGuard_mapStays e _ Option.isSome_map

/-! ### Selectors and the injection buffer (R49) -/

/-- What a change does to its own egress keeps the entry record, the guard record and the plans. -/
theorem State.MapStays.of_change {e : Port} (ho : State.OnlyAt e s t) (hc : State.ChangeReach e s t)
    (hs : s.SelectorReach t) : s.MapStays t := by
  obtain ⟨⟨_, _, _, _, _, _, _, ht⟩, -⟩ := hs
  refine ⟨fun j => ?_, fun j => ?_, by rw [ht]⟩
  · by_cases hj : j = e
    · rw [hj, ho.entry]
    · rw [ho.egresses j hj]
  · by_cases hj : j = e
    · have h := congrArg Option.isSome hc.guard
      rw [Option.isSome_map, Option.isSome_map] at h
      rw [hj, h]
    · rw [ho.guards j hj]

theorem State.injectDiscard_mapStays (s : State) (e : Port) : s.MapStays (s.injectDiscard e) :=
  .of_change (s.injectDiscard_onlyAt e) (s.injectDiscard_changeReach e) (s.injectDiscard_selector e)

theorem State.injectCut_mapStays (s : State) (e : Port) : s.MapStays (s.injectCut e) :=
  .of_change (s.injectCut_onlyAt e) (s.injectCut_changeReach e) (s.injectCut_selector e)

theorem State.injectSent_mapStays (s : State) (e : Port) : s.MapStays (s.injectSent e) :=
  .of_change (s.injectSent_onlyAt e) (s.injectSent_changeReach e) (s.injectSent_selector e)

theorem State.tryJoin_mapStays (s : State) (e : Port) : s.MapStays (s.tryJoin e) :=
  .of_change (s.tryJoin_onlyAt e) (s.tryJoin_changeReach e) (s.tryJoin_selector e)

theorem State.leaveFrame_mapStays (s : State) (e : Port) (ch : Change) : s.MapStays (s.leaveFrame e ch) :=
  .of_change (s.leaveFrame_onlyAt e ch) (s.leaveFrame_changeReach e ch) (s.leaveFrame_selector e ch)

theorem State.cutLeave_mapStays (s : State) (e : Port) (ch : Change) : s.MapStays (s.cutLeave e ch) :=
  .of_change (s.cutLeave_onlyAt e ch) (s.cutLeave_changeReach e ch) (s.cutLeave_selector e ch)

theorem State.takeChange_mapStays (s : State) (e : Port) (ch : Change) : s.MapStays (s.takeChange e ch) :=
  .of_change (s.takeChange_onlyAt e ch) (s.takeChange_changeReach e ch) (s.takeChange_selector e ch)

theorem State.endDrain_mapStays (s : State) (e : Port) (c : Character) : s.MapStays (s.endDrain e c) := by
  cases hc : s.egresses[e].change with
  | none =>
    unfold State.endDrain
    simp only [hc]
    exact .refl s
  | some ch =>
    rw [State.endDrain_leaves hc]
    dsimp only
    have h := s.setEgress_mapStays e { s.egresses[e] with line := some c, inside := false, held := none } rfl
    split
    · refine h.trans (State.together_mapStays _ _ fun b hb f hf t => ?_)
      rcases List.mem_pair.mp hb with rfl | rfl <;> rw [List.mem_singleton.mp hf]
      · exact t.injectSent_mapStays e
      · exact t.leaveFrame_mapStays e ch
    · exact h.trans (State.leaveFrame_mapStays _ e ch)

theorem State.expireDeadline_mapStays (s : State) (e : Port) : s.MapStays (s.expireDeadline e) := by
  cases hc : s.egresses[e].change with
  | none =>
    unfold State.expireDeadline
    rw [hc]
    exact .refl s
  | some ch =>
    rw [State.expireDeadline_cuts hc]
    split
    · refine s.together_mapStays _ fun b hb f hf t => ?_
      rcases List.mem_pair.mp hb with rfl | rfl <;> rw [List.mem_singleton.mp hf]
      · exact t.injectCut_mapStays e
      · exact t.cutLeave_mapStays e _
    · exact s.cutLeave_mapStays e _

theorem State.offer_mapStays (s : State) (src : Source) (c : Character) : s.MapStays (s.offer src c) :=
  ⟨fun e => by rw [offer_egress, Egress.receive_entry], fun _ => rfl, rfl⟩

theorem State.startFrame_mapStays (s : State) (e : Port) : s.MapStays (s.startFrame e) := by
  unfold State.startFrame
  dsimp only
  split
  · exact .refl s
  · exact (s.setPool_mapStays _).trans (State.setEgress_mapStays _ e _ (Egress.receive_entry _ _ _))

theorem State.sendShut_mapStays (s : State) (e : Port) : s.MapStays (s.sendShut e) := by
  unfold State.sendShut
  split
  · exact s.endDrain_mapStays e .shut
  · exact (s.setEgress_mapStays e _ (by rfl)).trans (State.injectSent_mapStays _ e)

/-! ### Guards (R53) -/

theorem State.guardParts_mapStays (s : State) (e : Port) (m : GuardMove) :
    ∀ b ∈ s.guardParts e m, ∀ f ∈ b, ∀ t : State, t.MapStays (f t) := by
  intro b hb f hf t
  rcases s.guardParts_cases e m with hm | ⟨g, hm⟩ | ⟨g, ch, hm⟩ <;> rw [hm] at hb
  · exact absurd hb List.not_mem_nil
  · rw [List.mem_singleton.mp hb] at hf
    rw [List.mem_singleton.mp hf]
    exact t.guardTo_mapStays e g
  · simp only [List.mem_cons, List.not_mem_nil, or_false] at hb
    rcases hb with rfl | rfl | rfl
    · rcases List.mem_pair.mp hf with rfl | rfl
      · exact t.guardTo_mapStays e g
      · exact t.occur_mapStays _
    · exact .of_change (Egress.injectionPart_onlyAt _ e ch f hf t) (Egress.injectionPart_changeReach _ e ch f hf t)
        (Egress.injectionPart_selector _ e ch f hf t)
    · exact .of_change (Egress.selectorPart_onlyAt _ e ch f hf t) (Egress.selectorPart_changeReach _ e ch f hf t)
        (Egress.selectorPart_selector _ e ch f hf t)

theorem State.guardMoves_mapStays (s : State) (e : Port) (m : GuardMove) : s.MapStays (s.guardMoves e m) :=
  s.together_mapStays _ (s.guardParts_mapStays e m)

theorem State.guardSwitch_mapStays (s : State) (e : Port) (sel : Selection) (automatic : Bool) (g : GuardState) :
    s.MapStays (s.guardSwitch e sel automatic g) := by
  unfold State.guardSwitch
  split
  · exact s.guardMoves_mapStays e _
  · unfold State.hostSwitch
    split
    · exact (s.guardTo_mapStays e g).trans (State.takeChange_mapStays _ e _)
    · exact .refl s

theorem State.guardCommand_mapStays (s : State) (e : Port) (r : Guard) (f : GuardFields) (c : GuardCommand) :
    s.MapStays (s.guardCommand e r f c) := by
  cases c with
  | lock =>
    unfold State.guardCommand State.guardLock
    dsimp only
    split
    · exact .refl s
    · split
      · exact s.guardSwitch_mapStays e _ _ _
      · exact s.guardTo_mapStays e _
  | forceStandby =>
    unfold State.guardCommand State.guardForce
    dsimp only
    split
    · exact .refl s
    · split
      · exact s.guardSwitch_mapStays e _ _ _
      · exact s.guardTo_mapStays e _
  | clear =>
    unfold State.guardCommand State.guardClear
    dsimp only
    split
    · exact s.guardMoves_mapStays e _
    · split
      · exact s.guardMoves_mapStays e _
      · exact .refl s

theorem State.guardInit_mapStays (s : State) (e : Port) : s.MapStays (s.guardInit e) := by
  unfold State.guardInit
  split
  · rename_i r f hr _
    exact (s.setGuard_mapStays e _ (by rw [hr]; rfl)).trans (State.guardTo_mapStays _ e _)
  · exact .refl s

theorem State.holdOffIfZero_mapStays (s : State) (e : Port) : s.MapStays (s.holdOffIfZero e) := by
  unfold State.holdOffIfZero
  split
  · split
    · exact s.guardMoves_mapStays e _
    · exact .refl s
  · exact .refl s

theorem State.guardSuspend_mapStays (s : State) (e : Port) : s.MapStays (s.guardSuspend e) := by
  unfold State.guardSuspend
  split
  · exact .refl s
  · split
    · exact s.guardTo_mapStays e _
    · exact .refl s

theorem State.resumeGuards_mapStays (s : State) (es : List Port) : s.MapStays (s.resumeGuards es) :=
  s.together_mapStays _ fun b hb => by
    obtain ⟨e, -, hb⟩ := List.mem_flatMap.mp hb
    obtain ⟨m, hm⟩ := s.guardResumeParts_move e
    exact s.guardParts_mapStays e m b (hm ▸ hb)

/-! ### The group interface and line events (R8, R97 to R108) -/

theorem State.groupTo_mapStays (s : State) (m : Membership) : s.MapStays (s.groupTo m) := by
  unfold State.groupTo
  split <;> exact .of_same rfl rfl rfl

theorem State.groupEnter_mapStays (s : State) (r : GroupPlan) : s.MapStays (s.groupEnter r) := by
  unfold State.groupEnter State.groupRelease
  split
  · exact s.groupTo_mapStays _
  · exact s.groupTo_mapStays _

theorem State.groupHoldEnds_mapStays (s : State) : s.MapStays s.groupHoldEnds := by
  unfold State.groupHoldEnds
  split
  · exact s.groupTo_mapStays _
  · split
    · exact s.groupTo_mapStays _
    · exact s.groupEnter_mapStays _

theorem State.groupArmed_mapStays (s : State) (r : GroupPlan) : s.MapStays (s.groupArmed r) := by
  have h := s.setGroup_mapStays { s.group with plan := some r }
  unfold State.groupArmed
  dsimp only
  split
  · exact h.trans (State.groupEnter_mapStays _ r)
  all_goals exact h

theorem State.groupToldGone_mapStays (s : State) (q : Bool) : s.MapStays (s.groupToldGone q) := by
  have gone (t : State) : t.MapStays t.groupPlanGone := by
    have h := t.setGroup_mapStays { t.group with plan := none }
    unfold State.groupPlanGone
    dsimp only
    split
    · exact h.trans (State.groupTo_mapStays _ _)
    · exact h.trans (State.groupTo_mapStays _ _)
    all_goals exact h
  unfold State.groupToldGone
  split
  · exact (s.setGroup_mapStays _).trans (gone _)
  · exact gone s

theorem State.groupLineEvent_mapStays (s : State) : s.MapStays s.groupLineEvent := by
  obtain ⟨_, _, _, _, _, _, _, _, h⟩ := s.groupLineEvent_touch.frame
  have same := s.groupLineEvent_sameMap
  exact .of_same same.egresses same.guards (by rw [h])

theorem State.lineParts_mapStays (s : State) (p : Port) (old new : LineState) :
    ∀ b ∈ s.lineParts p old new, ∀ f ∈ b, ∀ t : State, t.MapStays (f t) := by
  intro b hb f hf t
  rcases List.mem_append.mp hb with hb | hb
  · rcases List.mem_append.mp hb with hb | hb
    · split at hb
      · rw [List.mem_singleton.mp hb] at hf
        rw [List.mem_singleton.mp hf]
        exact t.occur_mapStays _
      · exact absurd hb List.not_mem_nil
    · split at hb
      · rw [List.mem_singleton.mp hb] at hf
        rw [List.mem_singleton.mp hf]
        exact t.groupLineEvent_mapStays
      · exact absurd hb List.not_mem_nil
  · obtain ⟨e, -, hb⟩ := List.mem_flatMap.mp hb
    obtain ⟨m, hm⟩ := s.guardLineParts_move e p old new
    exact s.guardParts_mapStays e m b (hm ▸ hb) f hf t

theorem State.putIngress_mapStays (s : State) (p : Port) (g : Ingress) : s.MapStays (s.putIngress p g) := by
  refine (s.setPort_mapStays p g).trans ?_
  show State.MapStays _ (State.announceLine _ p s.ports[p].line)
  unfold State.announceLine
  dsimp only
  split
  · exact .refl _
  · exact State.together_mapStays _ _ (State.lineParts_mapStays _ p _ _)

theorem State.readTracker_mapStays (s : State) (p : Port) : s.MapStays (s.readTracker p) := by
  unfold State.readTracker
  dsimp only
  have h := (s.setPort_mapStays p (s.ports[p].readOnce s.maxframe).after).trans
    (State.offer_mapStays _ (.ingress p) (s.ports[p].readOnce s.maxframe).emitted)
  split
  · exact h
  · exact h.trans (State.putIngress_mapStays _ p _)
  · exact h.trans (State.setPort_mapStays _ p _)

/-! ### The link (R157 to R162) -/

theorem State.messageReceived_mapStays (s : State) (kind tag : Byte) (payload : List Byte) :
    s.MapStays (s.messageReceived kind tag payload) := by
  refine (s.setLink_mapStays { s.link with framer := .seek, gapTimer := none }).trans ?_
  show State.MapStays _ (State.takeIn _ kind tag payload)
  unfold State.takeIn State.refuseAtIntake
  split
  · split
    · exact State.setLink_mapStays _ _
    · exact State.occur_mapStays _ _
  · exact State.setLink_mapStays _ _

theorem State.messageDiscarded_mapStays (s : State) : s.MapStays s.messageDiscarded :=
  (s.setLink_mapStays _).trans (State.occur_mapStays _ _)

theorem State.bodyReceived_mapStays (s : State) (got : List Byte) : s.MapStays (s.bodyReceived got) := by
  unfold State.bodyReceived
  split
  · exact s.messageReceived_mapStays _ _ _
  · exact s.setLink_mapStays _
  · exact s.setLink_mapStays _

theorem State.takeByte_mapStays (s : State) (b : Byte) (err : Bool) : s.MapStays (s.takeByte b err) := by
  unfold State.takeByte
  split
  · split
    · exact s.setLink_mapStays _
    · exact .refl s
  · split
    · exact s.messageDiscarded_mapStays
    · split <;> exact s.setLink_mapStays _
  · split
    · exact s.messageDiscarded_mapStays
    · split <;> exact s.setLink_mapStays _
  · split
    · exact s.messageDiscarded_mapStays
    · exact s.setLink_mapStays _
  · split
    · exact s.messageDiscarded_mapStays
    · split
      · exact s.bodyReceived_mapStays _
      · exact s.messageDiscarded_mapStays

end

end Sys2Proof.Machine
end

section
/-! Every step keeps a guard record for exactly the egresses whose entry has a guard, and valid entries (R26, R52). -/

namespace Sys2Proof.Machine

/-- Every edit of the plan has a valid entry record (R26). -/
def Plan.EntriesValid (p : Plan) : Prop := ∀ d ∈ p.edits, d.entry.valid = true

/-- From `s` to `t` guard records stay with the guarded entries, and where `valid` holds entry records stay valid. -/
structure State.KeepsMap (valid : Prop) (s t : State) : Prop where
  guards : s.GuardsMatch → t.GuardsMatch
  entries : valid → s.EntriesValid → t.EntriesValid

section
variable {s t u : State} {valid : Prop}

theorem State.KeepsMap.refl (valid : Prop) (s : State) : s.KeepsMap valid s := ⟨id, fun _ => id⟩

theorem State.KeepsMap.trans (h : s.KeepsMap valid t) (k : t.KeepsMap valid u) : s.KeepsMap valid u :=
  ⟨k.guards ∘ h.guards, fun hv => k.entries hv ∘ h.entries hv⟩

theorem State.KeepsMap.mono {weaker : Prop} (h : s.KeepsMap weaker t) (hv : valid → weaker) : s.KeepsMap valid t :=
  ⟨h.guards, h.entries ∘ hv⟩

theorem State.MapStays.keeps (h : s.MapStays t) (valid : Prop) : s.KeepsMap valid t := by
  refine ⟨fun hg e => ?_, fun _ hv => ⟨fun e => ?_, ?_⟩⟩
  · rw [h.guard, h.entry, hg e]
  · rw [h.entry, hv.1 e]
  · rw [h.plans]
    exact hv.2

/-- The edits of a stored plan are valid where every entry record is (R26). -/
theorem State.KeepsMap.of_stored {k : SlotId} {p : Plan} (hp : s.plans[k] = some p)
    (h : s.KeepsMap p.EntriesValid t) : s.KeepsMap True t :=
  ⟨h.guards, fun _ hv => h.entries (hv.2 k p hp) hv⟩

theorem State.setPlan_keepsMap (s : State) (k : SlotId) (p : Option Plan)
    (h : valid → ∀ q, p = some q → q.EntriesValid) : s.KeepsMap valid (s.setPlan k p) := by
  refine ⟨id, fun hv hs => ⟨hs.1, fun j q hj => ?_⟩⟩
  by_cases hjk : j = k
  · rw [hjk, setPlan_same] at hj
    exact h hv q hj
  · rw [setPlan_other s k p j hjk] at hj
    exact hs.2 j q hj

/-- A plan record written with valid edits. -/
theorem State.setPlan_some_keepsMap (s : State) (k : SlotId) (p : Plan) :
    s.KeepsMap p.EntriesValid (s.setPlan k (some p)) :=
  s.setPlan_keepsMap k _ fun hv _ hq => Option.some.inj hq ▸ hv

theorem State.freePlan_keepsMap (s : State) (k : SlotId) : s.KeepsMap valid (s.setPlan k none) :=
  s.setPlan_keepsMap k none fun _ _ hq => nomatch hq

theorem State.foldl_keepsMap {α : Type} (xs : List α) (f : State → α → State)
    (hf : ∀ x ∈ xs, ∀ t, State.KeepsMap valid t (f t x)) (s : State) : s.KeepsMap valid (xs.foldl f s) := by
  induction xs generalizing s with
  | nil => exact .refl valid s
  | cons x xs ih =>
    exact (hf x List.mem_cons_self s).trans (ih (fun y hy => hf y (List.mem_cons_of_mem _ hy)) (f s x))

theorem State.inSomeOrder_keepsMap {α : Type} (s : State) (xs : List α) (f : α → State → State)
    (hf : ∀ x ∈ xs, ∀ t : State, t.KeepsMap valid (f x t)) : s.KeepsMap valid (s.inSomeOrder xs f) :=
  State.inSomeOrder_keeps (s.KeepsMap valid) s xs f (fun t n h => h.trans ((t.setDraws_mapStays n).keeps valid))
    (fun x hx t h => h.trans (hf x hx t)) (.refl valid s)

theorem State.inSomeOrder_mapStays {α : Type} (s : State) (xs : List α) (f : α → State → State)
    (hf : ∀ x ∈ xs, ∀ t : State, t.MapStays (f x t)) : s.MapStays (s.inSomeOrder xs f) :=
  State.inSomeOrder_keeps s.MapStays s xs f (fun t n h => h.trans (t.setDraws_mapStays n))
    (fun x hx t h => h.trans (hf x hx t)) (.refl s)

/-! ### An entry record replaced (R45, R52, R86) -/

/-- A new guard record stands where the entry has a guard, and no other record or entry moves (R52). -/
theorem State.newGuard_records (s : State) (e : Port) (g : GuardState) :
    (s.newGuard e g).egresses = s.egresses ∧ (s.newGuard e g).plans = s.plans
      ∧ (s.newGuard e g).guards[e].isSome = s.egresses[e].entry.guard.isSome
      ∧ ∀ j : Port, j ≠ e → (s.newGuard e g).guards[j] = s.guards[j] := by
  unfold State.newGuard
  split
  · rename_i hg
    exact ⟨rfl, rfl, by rw [setGuard_same, hg]; rfl, fun j hj => setGuard_other s e _ j hj⟩
  · rename_i f hg
    exact ⟨rfl, rfl, by rw [setSerial_guards, setGuard_same, hg]; rfl, fun j hj => setGuard_other s e _ j hj⟩

/-- An entry record replaced whole, with its guard record (R45, R52). -/
theorem State.replaceEntry_keepsMap (s : State) (e : Port) (entry : Entry) (g : GuardState) :
    s.KeepsMap (entry.valid = true) ((s.setEgress e { s.egresses[e] with entry := entry }).newGuard e g) := by
  obtain ⟨hegress, hplans, hown, hothers⟩ :=
    (s.setEgress e { s.egresses[e] with entry := entry }).newGuard_records e g
  refine ⟨fun hs j => ?_, fun hv hs => ⟨fun j => ?_, ?_⟩⟩
  · by_cases hj : j = e
    · rw [hj, hegress, hown]
    · rw [hothers j hj, hegress, setEgress_other s e _ j hj]
      exact hs j
  · rw [hegress]
    by_cases hj : j = e
    · rw [hj, setEgress_same]
      exact hv
    · rw [setEgress_other s e _ j hj]
      exact hs.1 j
  · rw [hplans]
    exact hs.2

theorem State.handEdit_keepsMap (s : State) (id : Byte) (n : Nat) (d : Edit) :
    s.KeepsMap (d.entry.valid = true) (s.handEdit id n d) :=
  (s.replaceEntry_keepsMap d.egress d.entry .suspendedFired).trans ((State.takeChange_mapStays _ _ _).keeps _)

theorem State.connect_keepsMap (s : State) (e : Port) (entry : Entry) (d : Nat) (n : Bool) (tag : Byte) :
    s.KeepsMap (entry.valid = true) (s.connect e entry d n tag) :=
  (s.replaceEntry_keepsMap e entry .watching).trans
    ((((State.guardInit_mapStays _ e).trans (State.takeChange_mapStays _ e _)).trans
      (State.holdOffIfZero_mapStays _ e)).keeps _)

/-! ### Plans (R85 to R91) -/

theorem State.firePlan_keepsMap (s : State) (k : SlotId) (epoch : Option Half) (byRequest : Bool) :
    s.KeepsMap True (s.firePlan k epoch byRequest) := by
  unfold State.firePlan
  split
  · exact .refl True s
  · rename_i p hp
    split
    · refine .of_stored hp ?_
      dsimp only
      refine .trans ?_ (State.foldl_keepsMap _ _ (fun d hd t => (t.handEdit_keepsMap _ _ d).mono fun hv => hv d hd) _)
      have h := s.setPlan_some_keepsMap k (p.fired s.timeBase epoch)
      split
      · exact h.trans ((State.notify_mapStays _ _).keeps _)
      · exact h
    · exact .refl True s

theorem State.fireWaiting_keepsMap (s : State) (g : Trigger) : s.KeepsMap True (s.fireWaiting g) :=
  s.inSomeOrder_keepsMap _ _ fun k _ t => t.firePlan_keepsMap k none false

theorem State.takeGroupFire_keepsMap (s : State) : s.KeepsMap True s.takeGroupFire := by
  unfold State.takeGroupFire
  split
  · exact .refl True s
  · exact s.firePlan_keepsMap _ _ _

theorem State.takeMarks_keepsMap (s : State) : s.KeepsMap True s.takeMarks :=
  s.inSomeOrder_keepsMap _ _ fun p _ t => ((t.setPort_mapStays p _).keeps True).trans (State.fireWaiting_keepsMap _ _)

theorem State.letGo_mapStays (s : State) (p : Plan) (q : Bool) : s.MapStays (s.letGo p q) := by
  have released : s.MapStays (s.releaseClaims (p.edits.map (·.egress))) :=
    State.foldl_mapStays _ _ (fun t e => t.setClaim_mapStays e none) s
  have dropped (t : State) : t.MapStays (t.dropStranded p) :=
    t.inSomeOrder_mapStays _ _ fun e _ u => u.injectDiscard_mapStays e
  unfold State.letGo
  dsimp only
  have h := (released.trans (State.resumeGuards_mapStays _ (p.edits.map (·.egress)))).trans (dropped _)
  split
  · exact h.trans (State.groupToldGone_mapStays _ q)
  · exact h

theorem State.expirePlan_keepsMap (s : State) (k : SlotId) (p : Plan) (r : ExpiryReason) (q : Bool) :
    s.KeepsMap p.EntriesValid (s.expirePlan k p r q) :=
  (s.setPlan_some_keepsMap k { p with state := .expired, timer := none, reason := some r }).trans
    (((State.letGo_mapStays _ p q).trans (State.notify_mapStays _ _)).keeps _)

theorem State.armPlan_keepsMap (s : State) (k : SlotId) (p : Plan) : s.KeepsMap p.EntriesValid (s.armPlan k p) := by
  have claimed : s.MapStays (s.takeClaims p) :=
    State.foldl_mapStays _ _ (fun t e => (t.setClaim_mapStays e _).trans (State.guardSuspend_mapStays _ e)) s
  have told (t : State) : t.MapStays (t.tellArmed p) := by
    unfold State.tellArmed
    split
    · exact t.groupArmed_mapStays _
    · exact .refl t
  unfold State.armPlan
  dsimp only
  have h := ((claimed.keeps p.EntriesValid).trans
    (State.setPlan_some_keepsMap _ k { p with state := .armed, timer := p.armTimer })).trans ((told _).keeps _)
  split
  · exact h.trans ((State.firePlan_keepsMap _ _ _ _).mono fun _ => trivial)
  · exact h

theorem State.completePlan_keepsMap (s : State) (k : SlotId) (p : Plan) :
    s.KeepsMap p.EntriesValid (s.completePlan k p) := by
  unfold State.completePlan
  dsimp only
  refine .trans ?_ ((State.notify_mapStays _ _).keeps _)
  have h := s.setPlan_some_keepsMap k { p with state := .done, doneTime := some s.timeBase }
  split
  · exact h.trans ((State.setGroup_mapStays _ _).keeps _)
  · exact h

/-- An outcome recorded changes no entry record (R88). -/
theorem Plan.withOutcome_entriesValid {p : Plan} (h : p.EntriesValid) (e : Port) (ev : PlanSettle) :
    (p.withOutcome e ev).EntriesValid := by
  intro d hd
  obtain ⟨c, hc, rfl⟩ := List.mem_map.mp hd
  have hv := h c hc
  split
  · exact hv
  · exact hv

theorem State.takeEditSettle_keepsMap (s : State) (e : Port) (ev : PlanSettle) :
    s.KeepsMap True (s.takeEditSettle e ev) := by
  unfold State.takeEditSettle
  dsimp only
  have h := (s.setEgress_mapStays e { s.egresses[e] with planSettle := none } rfl).keeps True
  refine h.trans ?_
  split
  · exact .refl True _
  · rename_i k p hp
    refine .of_stored (State.findPlan_some _ _ k p hp).1 ?_
    split
    · refine State.KeepsMap.mono (weaker := (p.withOutcome e ev).EntriesValid) ?_
        fun hv => Plan.withOutcome_entriesValid hv e ev
      have settled := (State.setPlan_some_keepsMap (s.setEgress e { s.egresses[e] with planSettle := none }) k
        (p.withOutcome e ev)).trans
          ((((State.setClaim_mapStays _ e none).trans (State.guardInit_mapStays _ e)).trans
            (State.holdOffIfZero_mapStays _ e)).keeps _)
      split
      · exact settled.trans (State.completePlan_keepsMap _ _ _)
      · exact settled
    · exact .refl _ _

/-! ### The frame of one event -/

theorem State.event_keepsMap (can : Bool) (effect : State → State) (h : s.KeepsMap True (effect s)) :
    s.KeepsMap True (s.event can effect) := by
  unfold State.event
  split
  · exact h.trans ((State.arbitrate_mapStays _).keeps True)
  · exact .refl True s

theorem State.execute_keepsMap (accepts : Byte → Bool) (body : Message → State → Answer × State)
    (h : ∀ (m : Message) (t : State), t.KeepsMap True (body m t).2) : s.KeepsMap True (s.execute accepts body) := by
  unfold State.execute
  split
  · exact .refl True s
  · exact State.event_keepsMap _ _ ((((s.setLink_mapStays _).keeps True).trans (h _ _)).trans
      ((State.setLink_mapStays _ _).keeps True))

/-- An event or a request that leaves the map and the plans. -/
theorem State.event_stays (can : Bool) (effect : State → State) (h : s.MapStays (effect s)) :
    s.KeepsMap True (s.event can effect) := State.event_keepsMap can effect (h.keeps True)

theorem State.execute_stays (accepts : Byte → Bool) (body : Message → State → Answer × State)
    (h : ∀ (m : Message) (t : State), t.MapStays (body m t).2) : s.KeepsMap True (s.execute accepts body) :=
  State.execute_keepsMap accepts body fun m t => (h m t).keeps True

/-! ### Requests of the connection map, the guards and the plans -/

theorem connectRequest_keepsMap (m : Message) (s : State) : s.KeepsMap True (connectRequest m s).2 := by
  unfold connectRequest
  split
  · split
    · rename_i hd _
      split
      · exact .refl True s
      · exact (s.connect_keepsMap _ _ _ _ _).mono fun _ => (decode_valid hd).1
    · exact .refl True s
  · exact .refl True s

theorem guardControlRequest_stays (m : Message) (s : State) : s.MapStays (guardControlRequest m s).2 := by
  unfold guardControlRequest
  split
  · split
    · split
      · split
        · exact .refl s
        · exact s.guardCommand_mapStays _ _ _ _
      · exact .refl s
    · exact .refl s
  · exact .refl s

/-- The edits that are read have valid entry records (R72, R186). -/
theorem decodeEdits_valid (bytes : List Byte) :
    ∀ edits, decodeEdits bytes = some edits → ∀ d ∈ edits, d.entry.valid = true := by
  induction bytes using decodeEdits.induct with
  | case1 =>
    rintro edits h
    cases h
    nofun
  | case2 e b0 b1 b2 b3 b4 b5 rest egress entry es hes hentry hegress ih =>
    intro edits h
    rw [decodeEdits, hes, hentry, hegress] at h
    cases h
    exact List.forall_mem_cons.mpr ⟨(decode_valid hentry).1, ih es hes⟩
  | case3 e b0 b1 b2 b3 b4 b5 rest hbad ih =>
    intro edits h
    unfold decodeEdits at h
    split at h
    · exact (hbad _ _ _ ‹_› ‹_› ‹_›).elim
    · cases h
  | case4 b rest hshort =>
    intro edits h
    rw [decodeEdits] at h
    · cases h
    · exact hshort

theorem readPlan_valid {id kind index : Byte} {armExpiry groupWait drainDeadline : Nat} {fireNotice count : Byte}
    {edits : List Byte} {p : Plan}
    (h : readPlan id kind index armExpiry groupWait drainDeadline fireNotice count edits = some p) :
    p.EntriesValid := by
  unfold readPlan at h
  split at h
  · rename_i hes
    split at h
    · cases h
    · cases h
      exact decodeEdits_valid edits _ hes
  · cases h

theorem planLoadRequest_keepsMap (m : Message) (s : State) : s.KeepsMap True (planLoadRequest m s).2 := by
  have loaded (p : Plan) (hp : p.EntriesValid) : s.KeepsMap True (s.loadPlan p).2 := by
    unfold State.loadPlan
    split
    · exact .refl True s
    · split
      · exact .refl True s
      · split
        · exact .refl True s
        · exact (s.setPlan_some_keepsMap _ p).mono fun _ => hp
  unfold planLoadRequest
  split
  · split
    · exact .refl True s
    · split
      · exact .refl True s
      · rename_i p hp
        exact loaded p (readPlan_valid hp)
  · exact .refl True s

/-- A request of one stored plan keeps what its act keeps (R75, R91, R92, R95). -/
theorem planRequest_keepsMap (act : SlotId → Plan → State → Answer × State)
    (h : ∀ (k : SlotId) (p : Plan) (t : State), t.KeepsMap p.EntriesValid (act k p t).2) (m : Message) (s : State) :
    s.KeepsMap True (planRequest act m s).2 := by
  unfold planRequest
  split
  · split
    · exact .refl True s
    · split
      · exact .refl True s
      · rename_i k p hp
        exact .of_stored (s.findPlan_some _ k p hp).1 (h k p s)
  · exact .refl True s

theorem armRequest_keepsMap (k : SlotId) (p : Plan) (s : State) : s.KeepsMap p.EntriesValid (armRequest k p s).2 := by
  unfold armRequest
  split
  · exact .refl _ s
  · exact s.armPlan_keepsMap k p

theorem fireRequest_keepsMap (k : SlotId) (p : Plan) (s : State) :
    s.KeepsMap p.EntriesValid (fireRequest k p s).2 := by
  unfold fireRequest
  split
  · exact .refl _ s
  · split
    · exact .refl _ s
    · exact (s.firePlan_keepsMap _ _ _).mono fun _ => trivial

theorem cancelRequest_keepsMap (q : Bool) (k : SlotId) (p : Plan) (s : State) :
    s.KeepsMap p.EntriesValid (cancelRequest q k p s).2 := by
  have cancelled := s.setPlan_some_keepsMap k { p with state := .cancelled, timer := none }
  unfold cancelRequest
  dsimp only
  split
  · exact cancelled
  · exact cancelled.trans ((State.letGo_mapStays _ p q).keeps _)
  all_goals exact .refl _ s

theorem releaseRequest_keepsMap (k : SlotId) (p : Plan) (s : State) :
    s.KeepsMap p.EntriesValid (releaseRequest k p s).2 := by
  unfold releaseRequest
  split
  · exact .refl _ s
  · exact .refl _ s
  all_goals exact s.freePlan_keepsMap k

/-! ### Requests that leave the map and the plans -/

theorem groupConfigRequest_stays (m : Message) (s : State) : s.MapStays (groupConfigRequest m s).2 := by
  unfold groupConfigRequest
  split
  · split
    · exact .refl s
    · split
      · exact .refl s
      · split
        · exact .refl s
        · exact s.groupTo_mapStays _
  · exact .refl s

theorem restartRequest_stays (m : Message) (s : State) : s.MapStays (restartRequest m s).2 := by
  unfold restartRequest
  split <;> exact .of_same rfl rfl rfl

theorem setFramingRequest_stays (m : Message) (s : State) : s.MapStays (setFramingRequest m s).2 := by
  unfold setFramingRequest
  dsimp only
  repeat' split
  all_goals exact .of_same rfl rfl rfl

theorem setPortRequest_stays (m : Message) (s : State) : s.MapStays (setPortRequest m s).2 := by
  unfold setPortRequest
  repeat' split
  all_goals exact .of_same rfl rfl rfl

theorem portStatusRequest_stays (m : Message) (s : State) : s.MapStays (portStatusRequest m s).2 := by
  unfold portStatusRequest
  dsimp only
  repeat' split
  all_goals exact .of_same rfl rfl rfl

theorem patternConfigRequest_stays (m : Message) (s : State) : s.MapStays (patternConfigRequest m s).2 := by
  unfold patternConfigRequest
  dsimp only
  repeat' split
  all_goals exact .of_same rfl rfl rfl

theorem injectStartRequest_stays (m : Message) (s : State) : s.MapStays (injectStartRequest m s).2 := by
  unfold injectStartRequest State.injectStart
  dsimp only
  repeat' split
  all_goals exact .of_same rfl rfl rfl

theorem injectContRequest_stays (m : Message) (s : State) : s.MapStays (injectContRequest m s).2 := by
  unfold injectContRequest State.injectStore
  dsimp only
  repeat' split
  all_goals exact .of_same rfl rfl rfl

theorem injectAbortRequest_stays (m : Message) (s : State) : s.MapStays (injectAbortRequest m s).2 := by
  unfold injectAbortRequest
  repeat' split
  all_goals exact .of_same rfl rfl rfl

theorem conditionsClearRequest_stays (m : Message) (s : State) : s.MapStays (conditionsClearRequest m s).2 := by
  unfold conditionsClearRequest State.clearConds
  repeat' split
  all_goals exact .of_same rfl rfl rfl

theorem subscribeRequest_stays (m : Message) (s : State) : s.MapStays (subscribeRequest m s).2 := by
  unfold subscribeRequest State.subscribeTo
  repeat' split
  all_goals exact .of_same rfl rfl rfl

theorem planReadRequest_stays (m : Message) (s : State) : s.MapStays (planReadRequest m s).2 := by
  unfold planReadRequest
  repeat' split
  all_goals exact .refl s

/-! ### Resets (R27, R28, R70) -/

/-- At a reset no egress has a guard, and every slot is FREE. -/
theorem State.keepsMap_of_reset (he : ∀ e : Port, t.egresses[e] = Egress.afterReset)
    (hg : ∀ e : Port, t.guards[e] = none) (hp : ∀ k : SlotId, t.plans[k] = none) : s.KeepsMap True t := by
  refine ⟨fun _ e => ?_, fun _ _ => ⟨fun e => ?_, fun k p hk => ?_⟩⟩
  · rw [hg, he]
    rfl
  · rw [he]
    rfl
  · rw [hp] at hk
    cases hk

theorem State.enterReset_keepsMap (s u : State) (phase : Phase) (tep : Bool) :
    s.KeepsMap True (u.enterReset phase tep) :=
  State.keepsMap_of_reset (fun e => Vector.getElem_replicate e.isLt) (fun e => Vector.getElem_replicate e.isLt)
    fun k => Vector.getElem_replicate k.isLt

theorem State.endReset_keepsMap (s u : State) (cause : ResetCause) (straps : Straps) :
    s.KeepsMap True (u.helloQueued cause straps).arbitrate :=
  (State.keepsMap_of_reset (fun e => Vector.getElem_replicate e.isLt) (fun e => Vector.getElem_replicate e.isLt)
    fun k => Vector.getElem_replicate k.isLt).trans ((State.arbitrate_mapStays _).keeps True)

/-! ### Every command -/

theorem execHardwareResetEnd_keepsMap (i : Inputs) (h : exec (.hardwareResetEnd i) s = .next t) :
    s.KeepsMap True t := by
  cases hp : s.phase with
  | hardwareReset cause =>
    rw [execHardwareResetEnd_ends i hp] at h
    cases h
    exact State.endReset_keepsMap _ _ _ _
  | run | restart =>
    replace h : execHardwareResetEnd i s = .next t := h
    unfold execHardwareResetEnd at h
    rw [hp] at h
    cases h
    exact .refl True s

theorem execRestartEnd_keepsMap (straps : Straps) (h : exec (.restartEnd straps) s = .next t) :
    s.KeepsMap True t := by
  cases hp : s.phase with
  | restart left =>
    rw [execRestartEnd_ends straps hp] at h
    cases h
    exact State.endReset_keepsMap _ _ _ _
  | run | hardwareReset =>
    replace h : execRestartEnd straps s = .next t := h
    unfold execRestartEnd at h
    rw [hp] at h
    cases h
    exact .refl True s

theorem execSendComplete_keepsMap (h : execSendComplete s = .next t) : s.KeepsMap True t := by
  unfold execSendComplete at h
  split at h
  · split at h <;> cases h
    · exact State.enterReset_keepsMap _ _ _ _
    · exact ((s.setLink_mapStays _).trans (State.arbitrate_mapStays _)).keeps True
  · cases h
    exact .refl True s

theorem execSdDeassert_keepsMap (p : Port) (h : execSdDeassert p s = .next t) : s.KeepsMap True t := by
  unfold execSdDeassert at h
  split at h <;> cases h
  · exact State.event_stays _ _ (s.setPort_mapStays p _)
  · exact (s.setPort_mapStays p _).keeps True
  · exact (s.setPort_mapStays p _).keeps True

theorem execSdAssert_keepsMap (p : Port) (h : execSdAssert p s = .next t) : s.KeepsMap True t := by
  unfold execSdAssert at h
  split at h <;> cases h
  · exact State.event_stays _ _ (s.putIngress_mapStays p _)
  · exact (s.setPort_mapStays p _).keeps True
  · exact (s.setPort_mapStays p _).keeps True

theorem execTrackerRead_keepsMap (p : Port) (h : execTrackerRead p s = .next t) : s.KeepsMap True t := by
  cases h
  have before : s.KeepsMap True (s.beforeRead p) := by
    unfold State.beforeRead
    split
    · exact .refl True s
    · exact s.takeMarks_keepsMap
  have after (t : State) : t.KeepsMap True t.afterRead := by
    unfold State.afterRead
    split
    · exact t.takeMarks_keepsMap
    · exact .refl True t
  exact State.event_keepsMap _ _ ((before.trans ((State.readTracker_mapStays _ p).keeps True)).trans (after _))

theorem execNoiseWindowEnd_keepsMap (p : Port) (h : execNoiseWindowEnd p s = .next t) : s.KeepsMap True t := by
  cases h
  refine State.event_stays _ _ ?_
  split
  · exact .refl s
  · exact s.putIngress_mapStays p _

theorem execDrainEnd_keepsMap (e : Port) (h : execDrainEnd e s = .next t) : s.KeepsMap True t := by
  cases h
  refine State.event_stays _ _ ?_
  split
  · exact .refl s
  · exact s.endDrain_mapStays e _

theorem execEditSettle_keepsMap (e : Port) (h : execEditSettle e s = .next t) : s.KeepsMap True t := by
  cases h
  refine State.event_keepsMap _ _ ?_
  split
  · exact .refl True s
  · exact s.takeEditSettle_keepsMap e _

theorem execArmExpiry_keepsMap (k : SlotId) (h : execArmExpiry k s = .next t) : s.KeepsMap True t := by
  cases h
  refine State.event_keepsMap _ _ ?_
  split
  · exact .refl True s
  · rename_i p hp
    exact .of_stored hp (s.expirePlan_keepsMap k p _ _)

theorem execGroupWaitExpiry_keepsMap (k : SlotId) (q : Bool) (h : execGroupWaitExpiry k q s = .next t) :
    s.KeepsMap True t := by
  cases h
  refine State.event_keepsMap _ _ ?_
  split
  · exact .refl True s
  · rename_i p hp
    exact .of_stored hp (s.expirePlan_keepsMap k p _ _)

theorem execHoldOffExpiry_keepsMap (e : Port) (h : execHoldOffExpiry e s = .next t) : s.KeepsMap True t := by
  cases h
  refine State.event_stays _ _ ?_
  split
  · exact .refl s
  · exact s.guardMoves_mapStays e _

theorem execGrdyLevelChange_keepsMap (high : Bool) (h : execGrdyLevelChange high s = .next t) :
    s.KeepsMap True t := by
  unfold execGrdyLevelChange at h
  split at h <;> cases h
  · exact State.event_stays _ _ (s.setGroup_mapStays _)
  · exact (s.setGroup_mapStays _).keeps True
  · exact (s.setGroup_mapStays _).keeps True

theorem execAssemblyTimeout_keepsMap (k : ContextId) (h : execAssemblyTimeout k s = .next t) :
    s.KeepsMap True t := by
  cases h
  refine State.event_stays _ _ ?_
  split
  · exact .refl s
  · exact (s.setPool_mapStays _).trans (State.notify_mapStays _ _)

theorem execSenseRise_keepsMap (n : SenseId) (h : execSenseRise n s = .next t) : s.KeepsMap True t := by
  unfold execSenseRise at h
  split at h <;> cases h
  · exact State.event_stays _ _ (s.setSense_mapStays n _)
  · exact (s.setSense_mapStays n _).keeps True
  · exact (s.setSense_mapStays n _).keeps True

theorem execSenseFall_keepsMap (n : SenseId) (h : execSenseFall n s = .next t) : s.KeepsMap True t := by
  unfold execSenseFall at h
  split at h <;> cases h
  · exact State.event_stays _ _ (s.setSense_mapStays n _)
  · exact (s.setSense_mapStays n _).keeps True
  · exact (s.setSense_mapStays n _).keeps True

theorem execSenseQualified_keepsMap (n : SenseId) (h : execSenseQualified n s = .next t) : s.KeepsMap True t := by
  cases h
  refine State.event_keepsMap _ _ ?_
  have latched := ((s.setSense_mapStays n { s.senses[n] with qualifier := .high }).trans
    (State.occur_mapStays _ (senseCond n))).keeps True
  unfold State.qualifySense
  dsimp only
  split
  · exact latched
  · exact latched.trans (State.fireWaiting_keepsMap _ _)

/-- Every command keeps guard records with the guarded entries, and entries valid, each by what its unit's operations
keep (R26, R52). -/
theorem exec_keepsMap (c : Instr) (s t : State) (h : exec c s = .next t) : s.KeepsMap True t := by
  cases c
  case hardwareReset => cases h; exact State.enterReset_keepsMap _ _ _ _
  case hardwareResetEnd i => exact execHardwareResetEnd_keepsMap i h
  case restartEnd straps => exact execRestartEnd_keepsMap straps h
  case requestArrival => cases h; exact State.event_stays _ _ (s.messageReceived_mapStays _ _ _)
  case checkFailure => cases h; exact State.event_stays _ _ s.messageDiscarded_mapStays
  case lenOutOfRange => cases h; exact State.event_stays _ _ (s.setLink_mapStays _)
  case gapTimerExpiry =>
    cases h
    exact State.event_stays _ _ ((s.setLink_mapStays _).trans (State.occur_mapStays _ _))
  case byteReceived => cases h; exact State.event_stays _ _ (s.takeByte_mapStays _ _)
  case sendComplete => exact execSendComplete_keepsMap h
  case unknownRequestKind => cases h; exact State.execute_stays _ _ fun _ t => .refl t
  case echo => cases h; exact State.execute_stays _ _ fun m t => by unfold echoRequest; split <;> exact .refl t
  case status => cases h; exact State.execute_stays _ _ fun m t => by unfold statusRequest; split <;> exact .refl t
  case restart => cases h; exact State.execute_stays _ _ restartRequest_stays
  case setFraming => cases h; exact State.execute_stays _ _ setFramingRequest_stays
  case setPort => cases h; exact State.execute_stays _ _ setPortRequest_stays
  case portStatus => cases h; exact State.execute_stays _ _ portStatusRequest_stays
  case connect => cases h; exact State.execute_keepsMap _ _ connectRequest_keepsMap
  case mapRead => cases h; exact State.execute_stays _ _ fun m t => by unfold mapReadRequest; split <;> exact .refl t
  case guardControl => cases h; exact State.execute_stays _ _ guardControlRequest_stays
  case planLoad => cases h; exact State.execute_keepsMap _ _ planLoadRequest_keepsMap
  case planArm => cases h; exact State.execute_keepsMap _ _ (planRequest_keepsMap _ armRequest_keepsMap)
  case planFire => cases h; exact State.execute_keepsMap _ _ (planRequest_keepsMap _ fireRequest_keepsMap)
  case planCancel q => cases h; exact State.execute_keepsMap _ _ (planRequest_keepsMap _ (cancelRequest_keepsMap q))
  case planRelease => cases h; exact State.execute_keepsMap _ _ (planRequest_keepsMap _ releaseRequest_keepsMap)
  case planRead => cases h; exact State.execute_stays _ _ planReadRequest_stays
  case groupConfig => cases h; exact State.execute_stays _ _ groupConfigRequest_stays
  case groupStatus =>
    cases h
    exact State.execute_stays _ _ fun m t => by unfold groupStatusRequest; split <;> exact .refl t
  case patternConfig => cases h; exact State.execute_stays _ _ patternConfigRequest_stays
  case injectStart => cases h; exact State.execute_stays _ _ injectStartRequest_stays
  case injectCont => cases h; exact State.execute_stays _ _ injectContRequest_stays
  case injectAbort => cases h; exact State.execute_stays _ _ injectAbortRequest_stays
  case poolStatus =>
    cases h
    exact State.execute_stays _ _ fun m t => by unfold poolStatusRequest; split <;> exact .refl t
  case conditionsRead =>
    cases h
    exact State.execute_stays _ _ fun m t => by unfold conditionsReadRequest; split <;> exact .refl t
  case conditionsClear => cases h; exact State.execute_stays _ _ conditionsClearRequest_stays
  case subscribe => cases h; exact State.execute_stays _ _ subscribeRequest_stays
  case sdDeassert p => exact execSdDeassert_keepsMap p h
  case sdAssert p => exact execSdAssert_keepsMap p h
  case sdLossTimerExpiry p => cases h; exact State.event_stays _ _ (s.putIngress_mapStays p _)
  case characterReceived p c re => cases h; exact State.event_stays _ _ (s.putIngress_mapStays p _)
  case trackerRead p => exact execTrackerRead_keepsMap p h
  case noiseWindowEnd p => exact execNoiseWindowEnd_keepsMap p h
  case trafficTimerExpiry p => cases h; exact State.event_stays _ _ (s.putIngress_mapStays p _)
  case drainEnd e => exact execDrainEnd_keepsMap e h
  case deadlineExpiry e => cases h; exact State.event_stays _ _ (s.expireDeadline_mapStays e)
  case joinComplete e => cases h; exact State.event_stays _ _ (s.tryJoin_mapStays e)
  case editSettle e => exact execEditSettle_keepsMap e h
  case armExpiry k => exact execArmExpiry_keepsMap k h
  case groupWaitExpiry k q => exact execGroupWaitExpiry_keepsMap k q h
  case holdOffExpiry e => exact execHoldOffExpiry_keepsMap e h
  case waitToRestoreExpiry e => cases h; exact State.event_stays _ _ (s.guardSwitch_mapStays e _ _ _)
  case grdyLevelChange high => exact execGrdyLevelChange_keepsMap high h
  case qualificationComplete =>
    cases h
    exact State.event_keepsMap _ _ (((s.setGroup_mapStays _).keeps True).trans (State.takeGroupFire_keepsMap _))
  case holdExpiry => cases h; exact State.event_stays _ _ s.groupHoldEnds_mapStays
  case faultTimerExpiry =>
    cases h
    exact State.event_stays _ _ ((s.setGroup_mapStays _).trans (State.occur_mapStays _ _))
  case patternFrameStart =>
    cases h
    exact State.event_stays _ _ ((s.setPattern_mapStays _).trans (State.offer_mapStays _ _ _))
  case injectFrameStart e => cases h; exact State.event_stays _ _ (s.startFrame_mapStays e)
  case injectFrameSent e => cases h; exact State.event_stays _ _ (s.sendShut_mapStays e)
  case assemblyTimeout k => exact execAssemblyTimeout_keepsMap k h
  case senseRise n => exact execSenseRise_keepsMap n h
  case senseFall n => exact execSenseFall_keepsMap n h
  case senseQualified n => exact execSenseQualified_keepsMap n h

/-! ### One character time (log entry 5) -/

/-- A character time moves timers and lines, and no entry record. -/
theorem State.runNewTime_keepsMap (s : State) : s.KeepsMap True s.runNewTime := by
  have hplans : s.runNewTime.plans = s.clocksNewTime.plans := by rw [s.runNewTime_sources.frame]
  refine ⟨fun hs e => ?_, fun _ hs => ⟨fun e => ?_, fun k p hk => ?_⟩⟩
  · rw [s.runNewTime_guard, Option.isSome_map, s.runNewTime_entry, hs e]
  · rw [s.runNewTime_entry]
    exact hs.1 e
  · rw [hplans, clocksNewTime_plan] at hk
    obtain ⟨q, hq, rfl⟩ := Option.map_eq_some_iff.mp hk
    exact hs.2 k q hq

theorem State.newTime_keepsMap (s : State) : s.KeepsMap True s.newTime := by
  cases hp : s.phase with
  | run =>
    rw [State.newTime_run hp]
    exact s.runNewTime_keepsMap
  | restart left =>
    rw [State.newTime_restart hp]
    have h : s.MapStays { s with phase := .restart (left - 1) } := .of_same rfl rfl rfl
    exact h.keeps True
  | hardwareReset cause =>
    rw [State.newTime_hardwareReset hp]
    exact .refl True s

end

/-- Settles O57: every command, and a character time with nothing due, keeps both. -/
theorem everyStepKeepsGuardsAndEntries : Obligations.EveryStepKeepsGuardsAndEntries := by
  constructor
  · exact keptByStep_of_exec _ (fun _ _ h => h) (fun _ _ h => h) (fun c s t hs h => (exec_keepsMap c s t h).guards hs)
      fun s hs _ => s.newTime_keepsMap.guards hs
  · exact keptByStep_of_exec _ (fun _ _ h => h) (fun _ _ h => h)
      (fun c s t hs h => (exec_keepsMap c s t h).entries trivial hs)
      fun s hs _ => s.newTime_keepsMap.entries trivial hs

end Sys2Proof.Machine
end

section
/-! PLAN_LOAD (R72, R73): the edits and the trigger that its bytes spell, and the slot it takes. -/

namespace Sys2Proof.Machine

/-! ### Edits, triggers and plans as bytes (R72, R176) -/

/-- The seven bytes of one edit in a PLAN_LOAD: the egress and the entry record (section 10.5.4). -/
def Edit.loadBytes (d : Edit) : List Byte := natByte d.egress.val :: d.entry.encode

/-- An edit that a PLAN_LOAD can spell: its entry valid (R72), its outcome not yet there (R71). -/
def Edit.Loadable (d : Edit) : Prop := d.entry.valid = true ∧ d.outcome = none

theorem natByte_of_readBelow {n : Nat} {b : Byte} {k : Fin n} (h : readBelow n b = some k) : natByte k.val = b := by
  rw [← (readBelow_some n b k).mp h]
  exact (BitVec.ofNat_toNat 8 b).trans (BitVec.setWidth_eq b)

theorem Edit.loadBytes_length (d : Edit) : d.loadBytes.length = 7 := by
  unfold Edit.loadBytes
  rw [List.length_cons, d.entry.encode_length]

theorem editBytes_length (edits : List Edit) : (edits.flatMap Edit.loadBytes).length = 7 * edits.length := by
  rw [List.length_flatMap, List.map_congr_left fun d _ => d.loadBytes_length, List.map_const', List.sum_replicate,
    smul_eq_mul, Nat.mul_comm]

/-- The bytes of an edit with a valid entry are read as that edit. -/
theorem decodeEdits_cons {d : Edit} (hd : d.Loadable) (rest : List Byte) :
    decodeEdits (d.loadBytes ++ rest) = (decodeEdits rest).map (d :: ·) := by
  obtain ⟨e, entry, outcome⟩ := d
  obtain ⟨hv, rfl⟩ := hd
  obtain ⟨b0, b1, b2, b3, b4, b5, hbytes, -, hdecode⟩ := entryRecordsRoundTrip.2.1 entry hv
  show decodeEdits (natByte e.val :: entry.encode ++ rest) = _
  rw [hbytes]
  show decodeEdits (natByte e.val :: b0 :: b1 :: b2 :: b3 :: b4 :: b5 :: rest) = _
  rw [decodeEdits, readBelow_port, hdecode]
  cases decodeEdits rest <;> rfl

/-- Bytes are read as edits exactly where they are those of edits with valid entries (R72, R186). -/
theorem decodeEdits_some (bytes : List Byte) (edits : List Edit) :
    decodeEdits bytes = some edits ↔ (∀ d ∈ edits, d.Loadable) ∧ edits.flatMap Edit.loadBytes = bytes := by
  constructor
  · intro h
    induction bytes using decodeEdits.induct generalizing edits with
    | case1 =>
      cases h
      exact ⟨nofun, rfl⟩
    | case2 e b0 b1 b2 b3 b4 b5 rest egress entry es hes hentry hegress ih =>
      rw [decodeEdits, hes, hentry, hegress] at h
      cases h
      obtain ⟨hload, hbytes⟩ := ih es hes
      obtain ⟨hv, hencode⟩ := decode_valid hentry
      refine ⟨List.forall_mem_cons.mpr ⟨⟨hv, rfl⟩, hload⟩, ?_⟩
      rw [List.flatMap_cons, hbytes]
      show natByte egress.val :: entry.encode ++ rest = _
      rw [natByte_of_readBelow hegress, hencode]
      rfl
    | case3 e b0 b1 b2 b3 b4 b5 rest hbad ih =>
      unfold decodeEdits at h
      split at h
      · exact (hbad _ _ _ ‹_› ‹_› ‹_›).elim
      · cases h
    | case4 b rest hshort =>
      rw [decodeEdits] at h
      · cases h
      · exact hshort
  · rintro ⟨hload, rfl⟩
    induction edits with
    | nil => rfl
    | cons d edits ih =>
      obtain ⟨hd, hrest⟩ := List.forall_mem_cons.mp hload
      rw [List.flatMap_cons, decodeEdits_cons hd, ih hrest]
      rfl

/-- A trigger is read from its own kind and index, and from no other (R72, R176). -/
theorem Trigger.read_some (kind index : Byte) (t : Trigger) :
    Trigger.read kind index = some t ↔ t.code = kind ∧ t.index = index := by
  constructor
  · intro h
    unfold Trigger.read at h
    split_ifs at h with hnow hi hfire hi hmark hsense hgroup hi hi
    · cases h
      exact ⟨hnow.symm, hi.symm⟩
    · cases h
      exact ⟨hfire.symm, hi.symm⟩
    · obtain ⟨p, hp, rfl⟩ := Option.map_eq_some_iff.mp h
      exact ⟨hmark.symm, natByte_of_readBelow hp⟩
    · obtain ⟨n, hn, rfl⟩ := Option.map_eq_some_iff.mp h
      exact ⟨hsense.symm, natByte_of_readBelow hn⟩
    · cases h
      exact ⟨hgroup.symm, hi.symm⟩
    · cases h
      exact ⟨hgroup.symm, hi.symm⟩
  · rintro ⟨rfl, rfl⟩
    cases t with
    | now | fire => rfl
    | mark p => revert p; decide
    | sense n => revert n; decide
    | group r => cases r <;> rfl

theorem Trigger.timersSuit_iff (t : Trigger) (arm wait : Nat) : t.timersSuit arm wait = true ↔
    (t.isGroup = true → arm = 0 ∧ wait ≠ 0) ∧ (t.isGroup = false → wait = 0) := by
  unfold Trigger.timersSuit
  cases t.isGroup <;> simp

/-- The record of a plan as PLAN_LOAD stores it: LOADED, with nothing of an arming or a fire in it (R71, R73). -/
def loadedPlan (id : Byte) (trigger : Trigger) (arm wait drain : Nat) (notice : Bool) (edits : List Edit) : Plan :=
  { id := id, state := .loaded, trigger := trigger, armExpiry := arm, groupWait := wait, drainDeadline := drain
    fireNotice := notice, edits := edits, timer := none, fireTime := none, doneTime := none, reason := none
    epochAtFire := none }

/-- What a request that meets the checks of R72 spells. -/
structure LoadSpells (id kind index : Byte) (arm wait drain : Nat) (n count : Byte) (edits : List Byte) (p : Plan) :
    Prop where
  trigger : p.trigger.code = kind ∧ p.trigger.index = index
  notice : n = flagByte p.fireNotice
  loadable : ∀ d ∈ p.edits, d.Loadable
  bytes : p.edits.flatMap Edit.loadBytes = edits
  id_ne : id ≠ 0
  count_pos : 1 ≤ count.toNat
  count_le : count.toNat ≤ 16
  timers : (p.trigger.isGroup = true → arm = 0 ∧ wait ≠ 0) ∧ (p.trigger.isGroup = false → wait = 0)
  record : p = loadedPlan id p.trigger arm wait drain p.fireNotice p.edits

theorem readPlan_some (id kind index : Byte) (arm wait drain : Nat) (n count : Byte) (edits : List Byte) (p : Plan) :
    readPlan id kind index arm wait drain n count edits = some p
      ↔ LoadSpells id kind index arm wait drain n count edits p := by
  have hcount : count = 0 ↔ count.toNat = 0 := BitVec.toNat_eq.trans (by rfl)
  constructor
  · intro h
    unfold readPlan at h
    split at h
    · rename_i trigger notice es ht hn he
      split at h
      · cases h
      · rename_i hok
        cases h
        obtain ⟨hload, hbytes⟩ := (decodeEdits_some edits es).mp he
        rw [hcount] at hok
        simp only [not_or, Bool.not_eq_false, not_lt] at hok
        obtain ⟨hid, hpos, hle, htimers⟩ := hok
        exact ⟨(Trigger.read_some kind index trigger).mp ht, (readFlag_some n notice).mp hn, hload, hbytes, hid,
          Nat.pos_of_ne_zero hpos, hle, (trigger.timersSuit_iff arm wait).mp htimers, rfl⟩
    · cases h
  · intro h
    unfold readPlan
    rw [(Trigger.read_some kind index p.trigger).mpr h.trigger, (readFlag_some n p.fireNotice).mpr h.notice,
      (decodeEdits_some edits p.edits).mpr ⟨h.loadable, h.bytes⟩]
    dsimp only
    have hpos := h.count_pos
    have hle := h.count_le
    rw [if_neg]
    · exact congrArg some h.record.symm
    · rw [hcount, (p.trigger.timersSuit_iff arm wait).mpr h.timers]
      simp only [not_or]
      exact ⟨h.id_ne, by omega, by omega, by decide⟩

/-! ### The slot (R73) -/

/-- The first of all slots that meets a check. -/
theorem find_allSlots (f : SlotId → Bool) (k : SlotId) :
    allSlots.find? f = some k ↔ f k = true ∧ ∀ j : SlotId, j < k → f j = false := by
  unfold allSlots
  rw [List.find?_eq_some_iff_getElem]
  constructor
  · rintro ⟨hk, i, hi, rfl, hbefore⟩
    refine ⟨hk, fun j hj => ?_⟩
    rw [List.getElem_finRange] at hj
    simpa using hbefore j.val hj
  · rintro ⟨hk, hbefore⟩
    refine ⟨hk, k.val, by simp, by simp, fun j hj => ?_⟩
    have := hbefore ⟨j, by omega⟩ hj
    simpa using this

section
variable {s : State}

theorem State.freeSlot_some (k : SlotId) :
    s.freeSlot = some k ↔ s.plans[k] = none ∧ ∀ j : SlotId, j < k → s.plans[j] ≠ none := by
  unfold State.freeSlot
  rw [find_allSlots]
  refine and_congr Option.isNone_iff_eq_none (forall₂_congr fun j _ => ?_)
  rw [Option.isNone_eq_false_iff, Option.isSome_iff_ne_none]

theorem State.freeSlot_none : s.freeSlot = none ↔ ∀ k : SlotId, s.plans[k] ≠ none := by
  unfold State.freeSlot allSlots
  rw [List.find?_eq_none]
  simp

/-! ### The request (R72, R73) -/

variable {m : Message} {rest : List Message}

theorem State.loadPlan_dup {p : Plan} (h : ¬ (p.edits.map (·.egress)).Nodup) :
    s.loadPlan p = (Answer.refuse .dupEgress, s) := if_pos h

theorem State.loadPlan_inUse {p : Plan} (hn : (p.edits.map (·.egress)).Nodup)
    (h : ∃ (k : SlotId) (q : Plan), s.plans[k] = some q ∧ q.id = p.id) :
    s.loadPlan p = (Answer.refuse .idInUse, s) := by
  have hfound : (s.findPlan p.id).isSome := by
    rw [Option.isSome_iff_ne_none, Ne, s.findPlan_none]
    obtain ⟨k, q, hk, hq⟩ := h
    exact fun hne => hne k q hk hq
  unfold State.loadPlan
  rw [if_neg (not_not.mpr hn), if_pos hfound]

theorem State.findPlan_fresh {id : Byte} (h : ∀ (k : SlotId) (q : Plan), s.plans[k] = some q → q.id ≠ id) :
    ¬ (s.findPlan id).isSome := by
  rw [(s.findPlan_none id).mpr h]
  nofun

theorem State.loadPlan_full {p : Plan} (hn : (p.edits.map (·.egress)).Nodup)
    (h : ∀ (k : SlotId) (q : Plan), s.plans[k] = some q → q.id ≠ p.id) (hfull : ∀ k : SlotId, s.plans[k] ≠ none) :
    s.loadPlan p = (Answer.refuse .noSlot, s) := by
  unfold State.loadPlan
  rw [if_neg (not_not.mpr hn), if_neg (State.findPlan_fresh h), State.freeSlot_none.mpr hfull]

/-- A plan that no check refuses stands in the lowest-numbered FREE slot (R73). -/
theorem State.loadPlan_stores {p : Plan} {k : SlotId} (hn : (p.edits.map (·.egress)).Nodup)
    (h : ∀ (j : SlotId) (q : Plan), s.plans[j] = some q → q.id ≠ p.id) (hk : s.plans[k] = none)
    (hlow : ∀ j : SlotId, j < k → s.plans[j] ≠ none) :
    s.loadPlan p = (Answer.ok [natByte k.val], s.setPlan k (some p)) := by
  unfold State.loadPlan
  rw [if_neg (not_not.mpr hn), if_neg (State.findPlan_fresh h), (s.freeSlot_some k).mpr ⟨hk, hlow⟩]

theorem execPlanLoad_eq (h : s.CanTake m rest 0x30) : exec .planLoad s
    = .next ((planLoadRequest m (s.taken rest)).2.replied m (planLoadRequest m (s.taken rest)).1) :=
  congrArg Host.Outcome.next (s.execute_kind m rest 0x30 planLoadRequest h)

section
variable {id kind index ah al gh gl dh dl n count : Byte} {edits : List Byte}

theorem planLoadRequest_length (t : State) (hm : m.payload = id :: kind :: index :: ah :: al :: gh :: gl :: dh :: dl
    :: n :: count :: edits) (h : edits.length ≠ 7 * count.toNat) :
    planLoadRequest m t = (Answer.refuse .badLength, t) := by
  unfold planLoadRequest
  rw [hm]
  exact if_pos h

theorem planLoadRequest_fields (t : State) (hm : m.payload = id :: kind :: index :: ah :: al :: gh :: gl :: dh :: dl
    :: n :: count :: edits) (hl : edits.length = 7 * count.toNat)
    (h : readPlan id kind index (readHalf ah al).toNat (readHalf gh gl).toNat (readHalf dh dl).toNat n count edits
      = none) : planLoadRequest m t = (Answer.refuse .badField, t) := by
  unfold planLoadRequest
  rw [hm]
  dsimp only
  rw [if_neg (not_not.mpr hl), h]

theorem planLoadRequest_loads (t : State) (hm : m.payload = id :: kind :: index :: ah :: al :: gh :: gl :: dh :: dl
    :: n :: count :: edits) (hl : edits.length = 7 * count.toNat) {p : Plan}
    (h : readPlan id kind index (readHalf ah al).toNat (readHalf gh gl).toNat (readHalf dh dl).toNat n count edits
      = some p) : planLoadRequest m t = t.loadPlan p := by
  unfold planLoadRequest
  rw [hm]
  dsimp only
  rw [if_neg (not_not.mpr hl), h]

end

end

/-- Settles O38: the checks in order, what the bytes of a plan that meets them spell, and that such bytes are read
as that plan. -/
theorem planLoadTakesTheLowestFreeSlot : Obligations.PlanLoadTakesTheLowestFreeSlot := by
  refine ⟨?_, ?_, ?_, fun p n => rfl⟩
  · intro s m rest id kind index ah al gh gl dh dl n count edits hcan hm
    refine ⟨fun hl => ?_, fun hl hread => ?_, fun p hl hread => ?_⟩
    · rw [execPlanLoad_eq hcan, planLoadRequest_length _ hm hl]
    · rw [execPlanLoad_eq hcan, planLoadRequest_fields _ hm hl hread]
    · have hid : p.id = id := congrArg Plan.id ((readPlan_some ..).mp hread).record
      rw [execPlanLoad_eq hcan, planLoadRequest_loads _ hm hl hread, ← hid]
      refine ⟨fun hdup => ?_, fun hn huse => ?_, fun hn hfresh => ⟨fun hfull => ?_, fun k hk hlow => ?_⟩⟩
      · rw [State.loadPlan_dup (s := s.taken rest) hdup]
      · rw [State.loadPlan_inUse (s := s.taken rest) hn huse]
      · rw [State.loadPlan_full (s := s.taken rest) hn hfresh hfull]
      · rw [State.loadPlan_stores (s := s.taken rest) hn hfresh hk hlow]
  · intro id kind index n count arm wait drain edits p hl hread
    obtain ⟨htrigger, hnotice, hload, hbytes, hid, hpos, hle, htimers, hrecord⟩ := (readPlan_some ..).mp hread
    have hcount : p.edits.length = count.toNat := by
      have := editBytes_length p.edits
      rw [hbytes, hl] at this
      omega
    rw [hrecord]
    exact ⟨hid, hpos, hle, hcount, rfl, rfl, rfl, rfl, rfl, htrigger.1, htrigger.2, hnotice.symm, rfl, rfl, rfl, rfl,
      rfl, htimers.1, htimers.2, hload, hbytes⟩
  · intro s m rest id ah al gh gl dh dl count trigger notice edits k hcan arm wait hm hid hpos hle hcount hgroup hother
      hload hn hfresh hk hlow
    have hl : (edits.flatMap Edit.loadBytes).length = 7 * count.toNat := by rw [editBytes_length, hcount]
    have hread := (readPlan_some id trigger.code trigger.index arm wait (readHalf dh dl).toNat (flagByte notice) count
      (edits.flatMap Edit.loadBytes) (loadedPlan id trigger arm wait (readHalf dh dl).toNat notice edits)).mpr
      ⟨⟨rfl, rfl⟩, rfl, hload, rfl, hid, hcount ▸ hpos, hcount ▸ hle, ⟨hgroup, hother⟩, rfl⟩
    show exec .planLoad s = .next (((s.taken rest).setPlan k (some
      (loadedPlan id trigger arm wait (readHalf dh dl).toNat notice edits))).replied m (Answer.ok [natByte k.val]))
    rw [execPlanLoad_eq hcan, planLoadRequest_loads _ hm hl hread,
      State.loadPlan_stores (s := s.taken rest) (p := loadedPlan ..) hn hfresh hk hlow]

end Sys2Proof.Machine
end

section
/-! What each operation leaves of the plan table and of the claims (R70, R74). -/

namespace Sys2Proof.Machine

/-- From `s` to `t` the plan table and the claims stay. -/
structure State.TableStays (s t : State) : Prop where
  plans : t.plans = s.plans
  claims : t.claims = s.claims

section
variable {s t u : State}

theorem State.TableStays.refl (s : State) : s.TableStays s := ⟨rfl, rfl⟩

theorem State.TableStays.trans (h : s.TableStays t) (k : t.TableStays u) : s.TableStays u :=
  ⟨k.plans.trans h.plans, k.claims.trans h.claims⟩

/-! ### What selectors, guards, lines and notices do -/

theorem State.GuardReach.table (h : s.GuardReach t) : s.TableStays t := by
  obtain ⟨⟨_, _, _, _, _, _, _, rfl⟩, -⟩ := h
  exact ⟨rfl, rfl⟩

theorem State.SelectorReach.table (h : s.SelectorReach t) : s.TableStays t := h.guard.table

theorem State.LineReach.table {p : Port} (h : s.LineReach t p) : s.TableStays t := by
  obtain ⟨hframe, -⟩ := h
  rw [hframe]
  exact ⟨rfl, rfl⟩

theorem State.arbitrate_table (s : State) : s.TableStays s.arbitrate := by
  obtain ⟨_, _, _, h⟩ := s.arbitrate_touches
  rw [h]
  exact ⟨rfl, rfl⟩

theorem State.notify_table (s : State) (b : NoticeBody) : s.TableStays (s.notify b) := by
  obtain ⟨_, _, _, h⟩ := s.notify_touches b
  rw [h]
  exact ⟨rfl, rfl⟩

theorem State.occur_table (s : State) (c : CondId) : s.TableStays (s.occur c) := by
  obtain ⟨_, _, _, h⟩ := s.occur_touches c
  rw [h]
  exact ⟨rfl, rfl⟩

theorem State.setLink_table (s : State) (l : Link) : s.TableStays (s.setLink l) := ⟨rfl, rfl⟩

theorem State.setPort_table (s : State) (p : Port) (g : Ingress) : s.TableStays (s.setPort p g) := ⟨rfl, rfl⟩

theorem State.setEgress_table (s : State) (e : Port) (g : Egress) : s.TableStays (s.setEgress e g) := ⟨rfl, rfl⟩

theorem State.setGroup_table (s : State) (g : Group) : s.TableStays (s.setGroup g) := ⟨rfl, rfl⟩

theorem State.setPool_table (s : State) (p : Pool) : s.TableStays (s.setPool p) := ⟨rfl, rfl⟩

theorem State.setSense_table (s : State) (n : SenseId) (k : Sense) : s.TableStays (s.setSense n k) := ⟨rfl, rfl⟩

theorem State.offer_table (s : State) (src : Source) (c : Character) : s.TableStays (s.offer src c) := ⟨rfl, rfl⟩

theorem State.newGuard_table (s : State) (e : Port) (g : GuardState) : s.TableStays (s.newGuard e g) := by
  unfold State.newGuard
  split <;> exact ⟨rfl, rfl⟩

theorem State.putIngress_table (s : State) (p : Port) (g : Ingress) : s.TableStays (s.putIngress p g) :=
  (s.putIngress_lineReach p g).table

theorem State.readTracker_table (s : State) (p : Port) : s.TableStays (s.readTracker p) := by
  unfold State.readTracker
  dsimp only
  have offered := (s.setPort_table p (s.ports[p].readOnce s.maxframe).after).trans
    (State.offer_table _ (.ingress p) (s.ports[p].readOnce s.maxframe).emitted)
  split
  · exact offered
  · exact offered.trans (State.putIngress_table _ p _)
  · exact offered.trans (State.setPort_table _ p _)

theorem State.startFrame_table (s : State) (e : Port) : s.TableStays (s.startFrame e) := by
  unfold State.startFrame
  dsimp only
  split <;> exact ⟨rfl, rfl⟩

theorem State.sendShut_table (s : State) (e : Port) : s.TableStays (s.sendShut e) := by
  unfold State.sendShut
  split
  · exact (s.endDrain_selector e .shut).table
  · exact (s.setEgress_table e _).trans (State.injectSent_selector _ e).table

theorem State.connect_table (s : State) (e : Port) (entry : Entry) (d : Nat) (n : Bool) (tag : Byte) :
    s.TableStays (s.connect e entry d n tag) := by
  unfold State.connect
  have replaced := (s.setEgress_table e { s.egresses[e] with entry := entry }).trans
    (State.newGuard_table _ e .watching)
  exact replaced.trans (((State.guardInit_reach _ e).trans (State.takeChange_reach _ e _)).trans
    (State.holdOffIfZero_reach _ e)).table

theorem State.handEdit_table (s : State) (id : Byte) (n : Nat) (d : Edit) : s.TableStays (s.handEdit id n d) :=
  ((s.setEgress_table d.egress _).trans (State.newGuard_table _ d.egress .suspendedFired)).trans
    (State.takeChange_reach _ d.egress _).table

theorem State.foldl_table {α : Type} (xs : List α) (f : State → α → State)
    (hf : ∀ t x, State.TableStays t (f t x)) (s : State) : s.TableStays (xs.foldl f s) := by
  induction xs generalizing s with
  | nil => exact .refl s
  | cons x xs ih => exact (hf s x).trans (ih (f s x))

theorem State.resumeGuards_table (s : State) (es : List Port) : s.TableStays (s.resumeGuards es) :=
  (State.together_reach s _ fun b hb => by
    obtain ⟨e, -, hb⟩ := List.mem_flatMap.mp hb
    exact s.guardResumeParts_reach e b hb).table

theorem State.dropStranded_table (s : State) (p : Plan) : s.TableStays (s.dropStranded p) :=
  State.inSomeOrder_keeps s.TableStays s _ _ (fun _ _ h => h.trans ⟨rfl, rfl⟩)
    (fun e _ t h => h.trans (t.injectDiscard_selector e).table) (.refl s)

/-! ### The group interface (R97 to R107) -/

theorem State.groupTo_table (s : State) (m : Membership) : s.TableStays (s.groupTo m) := by
  unfold State.groupTo
  split <;> exact ⟨rfl, rfl⟩

theorem State.groupEnter_table (s : State) (r : GroupPlan) : s.TableStays (s.groupEnter r) := by
  unfold State.groupEnter State.groupRelease
  split <;> exact s.groupTo_table _

theorem State.groupHoldEnds_table (s : State) : s.TableStays s.groupHoldEnds := by
  unfold State.groupHoldEnds
  split
  · exact s.groupTo_table _
  · split
    · exact s.groupTo_table _
    · exact s.groupEnter_table _

theorem State.tellArmed_table (s : State) (p : Plan) : s.TableStays (s.tellArmed p) := by
  unfold State.tellArmed State.groupArmed
  split
  · dsimp only
    split
    · exact (s.setGroup_table _).trans (State.groupEnter_table _ _)
    all_goals exact ⟨rfl, rfl⟩
  · exact .refl s

theorem State.groupPlanGone_table (s : State) : s.TableStays s.groupPlanGone := by
  unfold State.groupPlanGone
  dsimp only
  split
  · exact (s.setGroup_table _).trans (State.groupTo_table _ _)
  · exact (s.setGroup_table _).trans (State.groupTo_table _ _)
  all_goals exact ⟨rfl, rfl⟩

theorem State.groupToldGone_table (s : State) (q : Bool) : s.TableStays (s.groupToldGone q) := by
  unfold State.groupToldGone
  split
  · exact (s.setGroup_table _).trans (State.groupPlanGone_table _)
  · exact s.groupPlanGone_table

/-! ### The link (R157 to R162) -/

theorem State.messageReceived_table (s : State) (kind tag : Byte) (payload : List Byte) :
    s.TableStays (s.messageReceived kind tag payload) := by
  refine (s.setLink_table { s.link with framer := .seek, gapTimer := none }).trans ?_
  show State.TableStays _ (State.takeIn _ kind tag payload)
  unfold State.takeIn State.refuseAtIntake
  split
  · split
    · exact State.setLink_table _ _
    · exact State.occur_table _ _
  · exact State.setLink_table _ _

theorem State.messageDiscarded_table (s : State) : s.TableStays s.messageDiscarded :=
  (s.setLink_table _).trans (State.occur_table _ _)

theorem State.bodyReceived_table (s : State) (got : List Byte) : s.TableStays (s.bodyReceived got) := by
  unfold State.bodyReceived
  split
  · exact s.messageReceived_table _ _ _
  · exact s.setLink_table _
  · exact s.setLink_table _

theorem State.takeByte_table (s : State) (b : Byte) (err : Bool) : s.TableStays (s.takeByte b err) := by
  have goesOn (f : Framer) : s.TableStays (s.framerTo f) := s.setLink_table _
  have seeks : s.TableStays s.framerToSeek := s.setLink_table _
  unfold State.takeByte
  split
  · split
    · exact goesOn _
    · exact .refl s
  · split
    · exact s.messageDiscarded_table
    · split
      · exact goesOn _
      · exact seeks
  · split
    · exact s.messageDiscarded_table
    · split <;> exact goesOn _
  · split
    · exact s.messageDiscarded_table
    · exact goesOn _
  · split
    · exact s.messageDiscarded_table
    · split
      · exact s.bodyReceived_table _
      · exact s.messageDiscarded_table

end

end Sys2Proof.Machine
end

section
/-! Every step keeps the plan ids distinct, and every claim with a live plan and an unsettled edit (R70, R71, R73,
R74). -/

namespace Sys2Proof.Machine

/-! ### A plan record replaced (R70, R74) -/

/-- A live plan holds egress `e`: it is ARMED or APPLYING and has an edit of `e` that has not settled (R74). -/
def Plan.Holds (p : Plan) (e : Port) : Prop :=
  (p.state = .armed ∨ p.state = .applying) ∧ ∃ d ∈ p.edits, d.egress = e ∧ d.outcome = none

section
variable {s t u : State} {k : SlotId} {p q : Plan}

theorem State.claimHeld_iff (e : Port) (id : Byte) :
    s.ClaimHeld e id ↔ ∃ (k : SlotId) (p : Plan), s.plans[k] = some p ∧ p.id = id ∧ p.Holds e := Iff.rfl

theorem State.TableStays.claimsHeld (h : s.TableStays t) (hs : s.ClaimsHeld) : t.ClaimsHeld := by
  unfold State.ClaimsHeld State.PlanIdsDistinct State.ClaimHeld
  rw [h.plans, h.claims]
  exact hs

/-- A slot gets a new content `x`: a plan that is well formed and whose id no other slot carries, or none.  Each claim
left is one that `x` holds, or one that stood and is not lost with what the slot held. -/
theorem State.ClaimsHeld.put (hs : s.ClaimsHeld) (x : Option Plan) (ht : t.plans = (s.setPlan k x).plans)
    (hx : ∀ q, x = some q → q.Wf ∧ ∀ (j : SlotId) (p : Plan), j ≠ k → s.plans[j] = some p → p.id ≠ q.id)
    (hc : ∀ (e : Port) (id : Byte), t.claims[e] = some id → (∃ q, x = some q ∧ q.id = id ∧ q.Holds e)
      ∨ s.claims[e] = some id ∧ ∀ p, s.plans[k] = some p → p.id = id → p.Holds e →
        ∃ q, x = some q ∧ q.id = id ∧ q.Holds e) : t.ClaimsHeld := by
  obtain ⟨hids, hwf, hheld⟩ := hs
  have same : t.plans[k] = x := by rw [ht, setPlan_same]
  have other (j : SlotId) (hj : j ≠ k) : t.plans[j] = s.plans[j] := by rw [ht, setPlan_other s k x j hj]
  refine ⟨fun i j p q hi hj hid => ?_, fun j p hj => ?_, fun e id he => ?_⟩
  · by_cases hik : i = k
    · by_cases hjk : j = k
      · rw [hik, hjk]
      · rw [hik, same] at hi
        rw [other j hjk] at hj
        exact absurd hid.symm ((hx p hi).2 j q hjk hj)
    · rw [other i hik] at hi
      by_cases hjk : j = k
      · rw [hjk, same] at hj
        exact absurd hid ((hx q hj).2 i p hik hi)
      · rw [other j hjk] at hj
        exact hids i j p q hi hj hid
  · by_cases hjk : j = k
    · rw [hjk, same] at hj
      exact (hx p hj).1
    · rw [other j hjk] at hj
      exact hwf j p hj
  · have held (h : ∃ q, x = some q ∧ q.id = id ∧ q.Holds e) : t.ClaimHeld e id := by
      obtain ⟨q, rfl, hid, hq⟩ := h
      exact (t.claimHeld_iff e id).mpr ⟨k, q, same, hid, hq⟩
    rcases hc e id he with h | ⟨hold, hkept⟩
    · exact held h
    · obtain ⟨j, p, hj, hid, hp⟩ := (s.claimHeld_iff e id).mp (hheld e id hold)
      by_cases hjk : j = k
      · subst hjk
        exact held (hkept p hj hid hp)
      · exact (t.claimHeld_iff e id).mpr ⟨j, p, (other j hjk).trans hj, hid, hp⟩

/-- A plan record written over one with the same id: each claim left is one that the new record holds, or one that
stood, which the new record holds if the old one did. -/
theorem State.ClaimsHeld.replace (hs : s.ClaimsHeld) (hp : s.plans[k] = some p) (q : Plan) (hid : q.id = p.id)
    (hwf : q.Wf) (ht : t.plans = (s.setPlan k (some q)).plans)
    (hc : ∀ (e : Port) (id : Byte), t.claims[e] = some id →
      id = p.id ∧ q.Holds e ∨ s.claims[e] = some id ∧ (p.Holds e → q.Holds e)) : t.ClaimsHeld := by
  refine hs.put (some q) ht ?_ fun e id he => ?_
  · rintro _ ⟨⟩
    exact ⟨hwf, fun j r hj hr hne => hj (hs.1 j k r p hr hp (hne.trans hid))⟩
  · refine (hc e id he).imp ?_ (And.imp_right ?_)
    · rintro ⟨rfl, hq⟩
      exact ⟨q, rfl, hid, hq⟩
    · intro hkept r hr hrid hr'
      cases hp.symm.trans hr
      exact ⟨q, rfl, hid.trans hrid, hkept hr'⟩

/-- A plan that has not fired becomes another such record with the same edits. -/
theorem Plan.Wf.unfired (h : p.Wf) (ha : p.state ≠ .applying) (hd : p.state ≠ .done) (hedits : q.edits = p.edits) :
    q.Wf := by
  unfold Plan.Wf
  rw [hedits]
  exact ⟨h.1, fun _ _ => h.2 ha hd⟩

/-- A slot that is freed held no live plan (R95). -/
theorem State.ClaimsHeld.free (hs : s.ClaimsHeld) (hp : s.plans[k] = some p)
    (hl : ¬ (p.state = .armed ∨ p.state = .applying)) : (s.setPlan k none).ClaimsHeld := by
  refine hs.put none rfl (fun _ h => absurd h (Option.some_ne_none _).symm) fun e id he =>
    .inr ⟨he, fun r hr _ hold => absurd hold.1 ?_⟩
  cases hp.symm.trans hr
  exact hl

/-- A FREE slot takes a plan that is LOADED, with an id that no slot carries (R73). -/
theorem State.ClaimsHeld.load (hs : s.ClaimsHeld) (hk : s.plans[k] = none) (hwf : q.Wf)
    (hid : ∀ (j : SlotId) (p : Plan), s.plans[j] = some p → p.id ≠ q.id) : (s.setPlan k (some q)).ClaimsHeld := by
  refine hs.put (some q) rfl ?_ fun e id he => .inr ⟨he, fun r hr => ?_⟩
  · rintro _ ⟨⟩
    exact ⟨hwf, fun j p _ => hid j p⟩
  · rw [hk] at hr
    cases hr

/-! ### Claims taken and released (R74, R76, R90) -/

/-- Claims written one after the other. -/
theorem State.foldl_claims (c : Option Byte) (f : State → Port → State)
    (hf : ∀ (t : State) (e : Port), (t.setClaim e c).TableStays (f t e)) (es : List Port) (s : State) :
    (es.foldl f s).plans = s.plans
      ∧ ∀ e : Port, (es.foldl f s).claims[e] = if e ∈ es then c else s.claims[e] := by
  induction es generalizing s with
  | nil => exact ⟨rfl, fun e => rfl⟩
  | cons x es ih =>
    obtain ⟨hplans, hclaims⟩ := ih (f s x)
    obtain ⟨hp, hc⟩ := hf s x
    refine ⟨hplans.trans hp, fun e => (hclaims e).trans ?_⟩
    rw [hc]
    by_cases hx : e = x
    · subst hx
      simp
    · rw [setClaim_other s x c e hx]
      simp [hx]

theorem State.releaseClaims_claims (s : State) (es : List Port) : (s.releaseClaims es).plans = s.plans
    ∧ ∀ e : Port, (s.releaseClaims es).claims[e] = if e ∈ es then none else s.claims[e] :=
  State.foldl_claims none _ (fun _ _ => .refl _) es s

theorem State.takeClaims_claims (s : State) (p : Plan) : (s.takeClaims p).plans = s.plans
    ∧ ∀ e : Port, (s.takeClaims p).claims[e] = if e ∈ p.edits.map (·.egress) then some p.id else s.claims[e] :=
  State.foldl_claims (some p.id) _ (fun _ e => (State.guardSuspend_reach _ e).table) _ s

theorem State.letGo_table (s : State) (p : Plan) (q : Bool) :
    (s.releaseClaims (p.edits.map (·.egress))).TableStays (s.letGo p q) := by
  unfold State.letGo
  dsimp only
  have h := (State.resumeGuards_table (s.releaseClaims (p.edits.map (·.egress))) (p.edits.map (·.egress))).trans
    (State.dropStranded_table _ p)
  split
  · exact h.trans (State.groupToldGone_table _ q)
  · exact h

/-- An ARMED plan that ends lets its claims go (R90, R91). -/
theorem State.letGo_claimsHeld (hs : s.ClaimsHeld) (hp : s.plans[k] = some p) (ha : p.state = .armed)
    (q : Plan) (hid : q.id = p.id) (hedits : q.edits = p.edits) (first : Bool) :
    ((s.setPlan k (some q)).letGo p first).ClaimsHeld := by
  obtain ⟨hplans, hclaims⟩ := (s.setPlan k (some q)).releaseClaims_claims (p.edits.map (·.egress))
  have hwf : q.Wf := (hs.2.1 k p hp).unfired (by rw [ha]; nofun) (by rw [ha]; nofun) hedits
  refine (State.letGo_table _ p first).claimsHeld (hs.replace hp q hid hwf hplans fun e id he => ?_)
  rw [hclaims] at he
  split at he
  · cases he
  · rename_i hne
    refine .inr ⟨he, fun hold => absurd ?_ hne⟩
    obtain ⟨-, d, hd, rfl, -⟩ := hold
    exact List.mem_map_of_mem hd

theorem State.expirePlan_claimsHeld (hs : s.ClaimsHeld) (hp : s.plans[k] = some p) (ha : p.state = .armed)
    (r : ExpiryReason) (first : Bool) : (s.expirePlan k p r first).ClaimsHeld :=
  (State.notify_table _ _).claimsHeld
    (State.letGo_claimsHeld hs hp ha { p with state := .expired, timer := none, reason := some r } rfl rfl first)

/-! ### The fire (R85) -/

/-- The fire takes an ARMED plan to APPLYING, which holds what it held. -/
theorem State.firePlan_claimsHeld (hs : s.ClaimsHeld) (k : SlotId) (epoch : Option Half) (byRequest : Bool) :
    (s.firePlan k epoch byRequest).ClaimsHeld := by
  unfold State.firePlan
  split
  · exact hs
  · rename_i p hp
    split
    · have hwf : (p.fired s.timeBase epoch).Wf := ⟨(hs.2.1 k p hp).1, fun h => absurd rfl h⟩
      have fired : (s.setPlan k (some (p.fired s.timeBase epoch))).ClaimsHeld :=
        hs.replace hp (p.fired s.timeBase epoch) rfl hwf rfl fun e id he => .inr ⟨he, fun hold => ⟨.inr rfl, hold.2⟩⟩
      refine (State.foldl_table _ _ (fun t d => t.handEdit_table p.id p.drainDeadline d) _).claimsHeld ?_
      split
      · exact (State.notify_table _ _).claimsHeld fired
      · exact fired
    · exact hs

theorem State.fireWaiting_claimsHeld (hs : s.ClaimsHeld) (g : Trigger) : (s.fireWaiting g).ClaimsHeld :=
  State.inSomeOrder_keeps State.ClaimsHeld s _ _ (fun _ _ h => h) (fun k _ _ h => State.firePlan_claimsHeld h k _ _) hs

theorem State.takeGroupFire_claimsHeld (hs : s.ClaimsHeld) : s.takeGroupFire.ClaimsHeld := by
  unfold State.takeGroupFire
  split
  · exact hs
  · exact State.firePlan_claimsHeld hs _ _ _

theorem State.takeMarks_claimsHeld (hs : s.ClaimsHeld) : s.takeMarks.ClaimsHeld :=
  State.inSomeOrder_keeps State.ClaimsHeld s _ _ (fun _ _ h => h)
    (fun p _ t h => State.fireWaiting_claimsHeld ((t.setPort_table p _).claimsHeld h) _) hs

/-! ### Arming (R76) -/

/-- An arming claims the edited egresses for a plan none of whose edits has settled. -/
theorem State.armPlan_claimsHeld (hs : s.ClaimsHeld) (hp : s.plans[k] = some p) (hl : p.state = .loaded) :
    (s.armPlan k p).ClaimsHeld := by
  obtain ⟨hplans, hclaims⟩ := s.takeClaims_claims p
  obtain ⟨hn, hout⟩ := hs.2.1 k p hp
  replace hout := hout (by rw [hl]; nofun) (by rw [hl]; nofun)
  have armed : ((s.takeClaims p).setPlan k (some { p with state := .armed, timer := p.armTimer })).ClaimsHeld := by
    refine hs.replace hp { p with state := .armed, timer := p.armTimer } rfl ⟨hn, fun _ _ => hout⟩ ?_
      fun e id he => ?_
    · unfold State.setPlan
      rw [hplans]
    · replace he : (s.takeClaims p).claims[e] = some id := he
      rw [hclaims] at he
      split at he
      · rename_i hmem
        obtain ⟨d, hd, rfl⟩ := List.mem_map.mp hmem
        cases he
        exact .inl ⟨rfl, .inl rfl, d, hd, rfl, hout d hd⟩
      · refine .inr ⟨he, fun hold => ?_⟩
        rcases hold.1 with h | h <;> rw [hl] at h <;> cases h
  unfold State.armPlan
  dsimp only
  split
  · exact State.firePlan_claimsHeld ((State.tellArmed_table _ p).claimsHeld armed) _ _ _
  · exact (State.tellArmed_table _ p).claimsHeld armed

/-! ### The settling of an edit (R88, R89) -/

theorem Plan.withOutcome_egresses (p : Plan) (e : Port) (ev : PlanSettle) :
    (p.withOutcome e ev).edits.map (·.egress) = p.edits.map (·.egress) := by
  show (List.map _ p.edits).map _ = _
  rw [List.map_map]
  refine List.map_congr_left fun d _ => ?_
  show (if d.egress = e then _ else d : Edit).egress = d.egress
  split <;> rfl

/-- The outcome of one edit leaves the plan holding every other egress (R88). -/
theorem Plan.Holds.withOutcome {e j : Port} (h : p.Holds j) (hj : j ≠ e) (ev : PlanSettle) :
    (p.withOutcome e ev).Holds j := by
  obtain ⟨hlive, d, hd, rfl, hout⟩ := h
  exact ⟨hlive, d, List.mem_map.mpr ⟨d, hd, if_neg hj⟩, rfl, hout⟩

theorem State.editSettled_table (s : State) (k : SlotId) (q : Plan) (e : Port) :
    ((s.setPlan k (some q)).setClaim e none).TableStays (s.editSettled k q e) :=
  ((State.guardInit_reach _ e).trans (State.holdOffIfZero_reach _ e)).table

/-- The edit that settles loses its claim, and its plan keeps the others (R88). -/
theorem State.editSettled_claimsHeld (hs : s.ClaimsHeld) (hp : s.plans[k] = some p) (ha : p.state = .applying)
    (e : Port) (ev : PlanSettle) : (s.editSettled k (p.withOutcome e ev) e).ClaimsHeld := by
  have hwf : (p.withOutcome e ev).Wf := by
    refine ⟨?_, fun h => absurd ha h⟩
    rw [p.withOutcome_egresses]
    exact (hs.2.1 k p hp).1
  refine (s.editSettled_table k _ e).claimsHeld (hs.replace hp (p.withOutcome e ev) rfl hwf rfl fun j id hj => ?_)
  by_cases hje : j = e
  · rw [hje, setClaim_same] at hj
    cases hj
  · rw [setClaim_other _ e none j hje] at hj
    exact .inr ⟨hj, fun hold => hold.withOutcome hje ev⟩

/-- A plan whose edits have all settled holds nothing, and is DONE (R89). -/
theorem State.completePlan_claimsHeld (hs : s.ClaimsHeld) (hp : s.plans[k] = some p)
    (hall : ∀ d ∈ p.edits, d.outcome.isSome) : (s.completePlan k p).ClaimsHeld := by
  have hwf : ({ p with state := .done, doneTime := some s.timeBase } : Plan).Wf :=
    ⟨(hs.2.1 k p hp).1, fun _ h => absurd rfl h⟩
  have done : (s.setPlan k (some { p with state := .done, doneTime := some s.timeBase })).ClaimsHeld := by
    refine hs.replace hp { p with state := .done, doneTime := some s.timeBase } rfl hwf rfl fun e id he =>
      .inr ⟨he, fun hold => ?_⟩
    obtain ⟨-, d, hd, -, hout⟩ := hold
    have := hall d hd
    rw [hout] at this
    cases this
  unfold State.completePlan
  dsimp only
  refine (State.notify_table _ _).claimsHeld ?_
  split
  · exact (State.setGroup_table _ _).claimsHeld done
  · exact done

theorem State.takeEditSettle_claimsHeld (hs : s.ClaimsHeld) (e : Port) (ev : PlanSettle) :
    (s.takeEditSettle e ev).ClaimsHeld := by
  unfold State.takeEditSettle
  dsimp only
  have taken := (s.setEgress_table e { s.egresses[e] with planSettle := none }).claimsHeld hs
  split
  · exact taken
  · rename_i k p hp
    split
    · rename_i ha
      have settled := State.editSettled_claimsHeld taken (State.findPlan_some _ _ k p hp).1 ha e ev
      split
      · rename_i hall
        refine State.completePlan_claimsHeld settled ?_ (List.all_eq_true.mp hall)
        rw [(State.editSettled_table _ k _ e).plans]
        exact setPlan_same _ k _
      · exact settled
    · exact taken

end

end Sys2Proof.Machine
end

section
/-! Every command, and a character time, keeps the claims with their plans (R70, R74). -/

namespace Sys2Proof.Machine

section
variable {s t : State}

/-! ### The frame of one event -/

theorem State.event_claimsHeld (can : Bool) (effect : State → State) (hs : s.ClaimsHeld)
    (h : can = true → (effect s).ClaimsHeld) : (s.event can effect).ClaimsHeld := by
  unfold State.event
  split
  · rename_i hc
    exact (State.arbitrate_table _).claimsHeld (h (Bool.and_eq_true _ _ ▸ hc).2)
  · exact hs

theorem State.execute_claimsHeld (accepts : Byte → Bool) (body : Message → State → Answer × State) (hs : s.ClaimsHeld)
    (h : ∀ (m : Message) (t : State), t.ClaimsHeld → (body m t).2.ClaimsHeld) :
    (s.execute accepts body).ClaimsHeld := by
  unfold State.execute
  split
  · exact hs
  · exact State.event_claimsHeld _ _ hs fun _ =>
      (State.setLink_table _ _).claimsHeld (h _ _ ((s.setLink_table _).claimsHeld hs))

/-- An event or a request that leaves the table and the claims. -/
theorem State.event_quiet (can : Bool) (effect : State → State) (h : s.TableStays (effect s)) (hs : s.ClaimsHeld) :
    (s.event can effect).ClaimsHeld := State.event_claimsHeld can effect hs fun _ => h.claimsHeld hs

theorem State.execute_quiet (accepts : Byte → Bool) (body : Message → State → Answer × State)
    (h : ∀ (m : Message) (t : State), t.TableStays (body m t).2) (hs : s.ClaimsHeld) :
    (s.execute accepts body).ClaimsHeld := State.execute_claimsHeld accepts body hs fun m t => (h m t).claimsHeld

/-! ### Requests of plans (R72, R75, R91, R92, R95) -/

/-- A plan as a request spells it has not fired (R71). -/
theorem LoadSpells.wf {id kind index n count : Byte} {arm wait drain : Nat} {edits : List Byte} {p : Plan}
    (h : LoadSpells id kind index arm wait drain n count edits p) (hn : (p.edits.map (·.egress)).Nodup) : p.Wf :=
  ⟨hn, fun _ _ d hd => (h.loadable d hd).2⟩

/-- A plan that no check refuses stands in a FREE slot (R73). -/
theorem State.loadPlan_claimsHeld (hs : s.ClaimsHeld) {p : Plan} (hwf : (p.edits.map (·.egress)).Nodup → p.Wf) :
    (s.loadPlan p).2.ClaimsHeld := by
  unfold State.loadPlan
  split
  · exact hs
  · rename_i hn
    split
    · exact hs
    · rename_i hfree
      rw [Option.not_isSome_iff_eq_none, s.findPlan_none] at hfree
      split
      · exact hs
      · rename_i k hk
        exact hs.load ((s.freeSlot_some k).mp hk).1 (hwf (not_not.mp hn)) hfree

theorem planLoadRequest_claimsHeld (m : Message) (t : State) (ht : t.ClaimsHeld) :
    (planLoadRequest m t).2.ClaimsHeld := by
  unfold planLoadRequest
  split
  · split
    · exact ht
    · split
      · exact ht
      · rename_i p hp
        exact State.loadPlan_claimsHeld ht ((readPlan_some ..).mp hp).wf
  · exact ht

/-- A request of one plan acts on a plan that stands in its slot (R75). -/
theorem planRequest_claimsHeld (act : SlotId → Plan → State → Answer × State)
    (h : ∀ (k : SlotId) (p : Plan) (t : State), t.ClaimsHeld → t.plans[k] = some p → (act k p t).2.ClaimsHeld)
    (m : Message) (t : State) (ht : t.ClaimsHeld) : (planRequest act m t).2.ClaimsHeld := by
  unfold planRequest
  split
  · split
    · exact ht
    · split
      · exact ht
      · rename_i k p hp
        exact h k p t ht (t.findPlan_some _ k p hp).1
  · exact ht

theorem State.loaded_of_armRefusal {p : Plan} (h : s.armRefusal p = none) : p.state = .loaded := by
  unfold State.armRefusal at h
  split at h
  · cases h
  · rename_i hl
    exact not_not.mp hl

theorem armRequest_claimsHeld (k : SlotId) (p : Plan) (t : State) (ht : t.ClaimsHeld) (hp : t.plans[k] = some p) :
    (armRequest k p t).2.ClaimsHeld := by
  unfold armRequest
  split
  · exact ht
  · rename_i hr
    exact State.armPlan_claimsHeld ht hp (State.loaded_of_armRefusal hr)

theorem fireRequest_claimsHeld (k : SlotId) (p : Plan) (t : State) (ht : t.ClaimsHeld) (_ : t.plans[k] = some p) :
    (fireRequest k p t).2.ClaimsHeld := by
  unfold fireRequest
  split
  · exact ht
  · split
    · exact ht
    · exact State.firePlan_claimsHeld ht k none true

/-- A cancel ends a plan that is LOADED, which holds nothing, or ARMED, which lets its claims go (R91). -/
theorem cancelRequest_claimsHeld (first : Bool) (k : SlotId) (p : Plan) (t : State) (ht : t.ClaimsHeld)
    (hp : t.plans[k] = some p) : (cancelRequest first k p t).2.ClaimsHeld := by
  unfold cancelRequest
  dsimp only
  split
  · rename_i hl
    refine ht.replace hp { p with state := .cancelled, timer := none } rfl
      ((ht.2.1 k p hp).unfired (by rw [hl]; nofun) (by rw [hl]; nofun) rfl) rfl fun e id he => .inr ⟨he, fun hold => ?_⟩
    rcases hold.1 with h | h <;> rw [hl] at h <;> cases h
  · rename_i ha
    exact State.letGo_claimsHeld ht hp ha { p with state := .cancelled, timer := none } rfl rfl first
  all_goals exact ht

theorem releaseRequest_claimsHeld (k : SlotId) (p : Plan) (t : State) (ht : t.ClaimsHeld) (hp : t.plans[k] = some p) :
    (releaseRequest k p t).2.ClaimsHeld := by
  unfold releaseRequest
  split
  · exact ht
  · exact ht
  all_goals
    rename_i hst
    exact ht.free hp (by rw [hst]; decide)

/-! ### Requests that leave the table and the claims -/

theorem connectRequest_table (m : Message) (t : State) : t.TableStays (connectRequest m t).2 := by
  unfold connectRequest
  split
  · split
    · split
      · exact .refl t
      · exact t.connect_table _ _ _ _ _
    · exact .refl t
  · exact .refl t

theorem guardControlRequest_table (m : Message) (t : State) : t.TableStays (guardControlRequest m t).2 := by
  unfold guardControlRequest
  split
  · split
    · split
      · split
        · exact .refl t
        · exact (t.guardCommand_reach _ _ _ _).table
      · exact .refl t
    · exact .refl t
  · exact .refl t

theorem groupConfigRequest_table (m : Message) (t : State) : t.TableStays (groupConfigRequest m t).2 := by
  unfold groupConfigRequest
  split
  · split
    · exact .refl t
    · split
      · exact .refl t
      · split
        · exact .refl t
        · exact t.groupTo_table _
  · exact .refl t

theorem restartRequest_table (m : Message) (t : State) : t.TableStays (restartRequest m t).2 := by
  unfold restartRequest
  split <;> exact ⟨rfl, rfl⟩

theorem setFramingRequest_table (m : Message) (t : State) : t.TableStays (setFramingRequest m t).2 := by
  unfold setFramingRequest
  dsimp only
  repeat' split
  all_goals exact ⟨rfl, rfl⟩

theorem setPortRequest_table (m : Message) (t : State) : t.TableStays (setPortRequest m t).2 := by
  unfold setPortRequest
  repeat' split
  all_goals exact ⟨rfl, rfl⟩

theorem portStatusRequest_table (m : Message) (t : State) : t.TableStays (portStatusRequest m t).2 := by
  unfold portStatusRequest
  dsimp only
  repeat' split
  all_goals exact ⟨rfl, rfl⟩

theorem patternConfigRequest_table (m : Message) (t : State) : t.TableStays (patternConfigRequest m t).2 := by
  unfold patternConfigRequest
  dsimp only
  repeat' split
  all_goals exact ⟨rfl, rfl⟩

theorem injectStartRequest_table (m : Message) (t : State) : t.TableStays (injectStartRequest m t).2 := by
  unfold injectStartRequest State.injectStart
  dsimp only
  repeat' split
  all_goals exact ⟨rfl, rfl⟩

theorem injectContRequest_table (m : Message) (t : State) : t.TableStays (injectContRequest m t).2 := by
  unfold injectContRequest State.injectStore
  dsimp only
  repeat' split
  all_goals exact ⟨rfl, rfl⟩

theorem injectAbortRequest_table (m : Message) (t : State) : t.TableStays (injectAbortRequest m t).2 := by
  unfold injectAbortRequest
  repeat' split
  all_goals exact ⟨rfl, rfl⟩

theorem conditionsClearRequest_table (m : Message) (t : State) : t.TableStays (conditionsClearRequest m t).2 := by
  unfold conditionsClearRequest State.clearConds
  repeat' split
  all_goals exact ⟨rfl, rfl⟩

theorem subscribeRequest_table (m : Message) (t : State) : t.TableStays (subscribeRequest m t).2 := by
  unfold subscribeRequest State.subscribeTo
  repeat' split
  all_goals exact ⟨rfl, rfl⟩

theorem planReadRequest_table (m : Message) (t : State) : t.TableStays (planReadRequest m t).2 := by
  unfold planReadRequest
  repeat' split
  all_goals exact .refl t

/-! ### Resets (R27, R28, R70) -/

/-- At a reset every slot is FREE and nothing is claimed. -/
theorem State.claimsHeld_of_reset (hp : ∀ k : SlotId, t.plans[k] = none) (hc : ∀ e : Port, t.claims[e] = none) :
    t.ClaimsHeld := by
  refine ⟨fun j k p q hj => ?_, fun k p hk => ?_, fun e id he => ?_⟩
  · rw [hp] at hj
    cases hj
  · rw [hp] at hk
    cases hk
  · rw [hc] at he
    cases he

theorem State.enterReset_claimsHeld (s : State) (phase : Phase) (tep : Bool) : (s.enterReset phase tep).ClaimsHeld :=
  State.claimsHeld_of_reset (fun k => Vector.getElem_replicate k.isLt) fun e => Vector.getElem_replicate e.isLt

theorem State.endReset_claimsHeld (s : State) (cause : ResetCause) (straps : Straps) :
    (s.helloQueued cause straps).arbitrate.ClaimsHeld :=
  (State.arbitrate_table _).claimsHeld (State.claimsHeld_of_reset (fun k => Vector.getElem_replicate k.isLt)
    fun e => Vector.getElem_replicate e.isLt)

/-! ### Every command -/

theorem execHardwareResetEnd_claimsHeld (i : Inputs) (hs : s.ClaimsHeld) (h : exec (.hardwareResetEnd i) s = .next t) :
    t.ClaimsHeld := by
  cases hp : s.phase with
  | hardwareReset cause =>
    rw [execHardwareResetEnd_ends i hp] at h
    cases h
    exact State.endReset_claimsHeld _ _ _
  | run | restart =>
    replace h : execHardwareResetEnd i s = .next t := h
    unfold execHardwareResetEnd at h
    rw [hp] at h
    cases h
    exact hs

theorem execRestartEnd_claimsHeld (straps : Straps) (hs : s.ClaimsHeld) (h : exec (.restartEnd straps) s = .next t) :
    t.ClaimsHeld := by
  cases hp : s.phase with
  | restart left =>
    rw [execRestartEnd_ends straps hp] at h
    cases h
    exact State.endReset_claimsHeld _ _ _
  | run | hardwareReset =>
    replace h : execRestartEnd straps s = .next t := h
    unfold execRestartEnd at h
    rw [hp] at h
    cases h
    exact hs

theorem execSendComplete_claimsHeld (hs : s.ClaimsHeld) (h : execSendComplete s = .next t) : t.ClaimsHeld := by
  unfold execSendComplete at h
  split at h
  · split at h <;> cases h
    · exact State.enterReset_claimsHeld _ _ _
    · exact ((s.setLink_table _).trans (State.arbitrate_table _)).claimsHeld hs
  · cases h
    exact hs

/-- An input level: an event while the part runs, and noted in a reset (log entry 29). -/
theorem execSdDeassert_claimsHeld (p : Port) (hs : s.ClaimsHeld) (h : execSdDeassert p s = .next t) :
    t.ClaimsHeld := by
  unfold execSdDeassert at h
  split at h <;> cases h
  · exact State.event_quiet _ _ (s.setPort_table p _) hs
  all_goals exact (s.setPort_table p _).claimsHeld hs

theorem execSdAssert_claimsHeld (p : Port) (hs : s.ClaimsHeld) (h : execSdAssert p s = .next t) : t.ClaimsHeld := by
  unfold execSdAssert at h
  split at h <;> cases h
  · exact State.event_quiet _ _ (s.putIngress_table p _) hs
  all_goals exact (s.setPort_table p _).claimsHeld hs

theorem execGrdyLevelChange_claimsHeld (high : Bool) (hs : s.ClaimsHeld) (h : execGrdyLevelChange high s = .next t) :
    t.ClaimsHeld := by
  unfold execGrdyLevelChange at h
  split at h <;> cases h
  · exact State.event_quiet _ _ (s.setGroup_table _) hs
  all_goals exact (s.setGroup_table _).claimsHeld hs

theorem execSenseRise_claimsHeld (n : SenseId) (hs : s.ClaimsHeld) (h : execSenseRise n s = .next t) :
    t.ClaimsHeld := by
  unfold execSenseRise at h
  split at h <;> cases h
  · exact State.event_quiet _ _ (s.setSense_table n _) hs
  all_goals exact (s.setSense_table n _).claimsHeld hs

theorem execSenseFall_claimsHeld (n : SenseId) (hs : s.ClaimsHeld) (h : execSenseFall n s = .next t) :
    t.ClaimsHeld := by
  unfold execSenseFall at h
  split at h <;> cases h
  · exact State.event_quiet _ _ (s.setSense_table n _) hs
  all_goals exact (s.setSense_table n _).claimsHeld hs

theorem State.beforeRead_claimsHeld (hs : s.ClaimsHeld) (p : Port) : (s.beforeRead p).ClaimsHeld := by
  unfold State.beforeRead
  split
  · exact hs
  · exact State.takeMarks_claimsHeld hs

theorem State.afterRead_claimsHeld (hs : s.ClaimsHeld) : s.afterRead.ClaimsHeld := by
  unfold State.afterRead
  split
  · exact State.takeMarks_claimsHeld hs
  · exact hs

theorem execTrackerRead_claimsHeld (p : Port) (hs : s.ClaimsHeld) (h : execTrackerRead p s = .next t) :
    t.ClaimsHeld := by
  cases h
  exact State.event_claimsHeld _ _ hs fun _ => State.afterRead_claimsHeld
    ((State.readTracker_table _ p).claimsHeld (State.beforeRead_claimsHeld hs p))

theorem execNoiseWindowEnd_claimsHeld (p : Port) (hs : s.ClaimsHeld) (h : execNoiseWindowEnd p s = .next t) :
    t.ClaimsHeld := by
  cases h
  refine State.event_quiet _ _ ?_ hs
  split
  · exact .refl s
  · exact s.putIngress_table p _

theorem execDrainEnd_claimsHeld (e : Port) (hs : s.ClaimsHeld) (h : execDrainEnd e s = .next t) : t.ClaimsHeld := by
  cases h
  refine State.event_quiet _ _ ?_ hs
  split
  · exact .refl s
  · exact (s.endDrain_selector e _).table

theorem execEditSettle_claimsHeld (e : Port) (hs : s.ClaimsHeld) (h : execEditSettle e s = .next t) :
    t.ClaimsHeld := by
  cases h
  refine State.event_claimsHeld _ _ hs fun _ => ?_
  split
  · exact hs
  · exact State.takeEditSettle_claimsHeld hs e _

/-- A timer that is offered is that of an ARMED plan (R76). -/
theorem State.armed_of_waits {k : SlotId} {isGroup : Bool} {p : Plan} (h : s.waits k isGroup = true)
    (hp : s.plans[k] = some p) : p.state = .armed := by
  unfold State.waits at h
  rw [hp, Option.any_some, Bool.and_eq_true, Bool.and_eq_true, decide_eq_true_eq] at h
  exact h.1.1

theorem execArmExpiry_claimsHeld (k : SlotId) (hs : s.ClaimsHeld) (h : execArmExpiry k s = .next t) :
    t.ClaimsHeld := by
  cases h
  refine State.event_claimsHeld _ _ hs fun hw => ?_
  split
  · exact hs
  · rename_i p hp
    exact State.expirePlan_claimsHeld hs hp (State.armed_of_waits hw hp) _ _

theorem execGroupWaitExpiry_claimsHeld (k : SlotId) (first : Bool) (hs : s.ClaimsHeld)
    (h : execGroupWaitExpiry k first s = .next t) : t.ClaimsHeld := by
  cases h
  refine State.event_claimsHeld _ _ hs fun hw => ?_
  split
  · exact hs
  · rename_i p hp
    exact State.expirePlan_claimsHeld hs hp (State.armed_of_waits hw hp) _ _

theorem execHoldOffExpiry_claimsHeld (e : Port) (hs : s.ClaimsHeld) (h : execHoldOffExpiry e s = .next t) :
    t.ClaimsHeld := by
  cases h
  refine State.event_quiet _ _ ?_ hs
  split
  · exact .refl s
  · exact (s.guardMoves_reach e _).table

theorem execAssemblyTimeout_claimsHeld (k : ContextId) (hs : s.ClaimsHeld) (h : execAssemblyTimeout k s = .next t) :
    t.ClaimsHeld := by
  cases h
  refine State.event_quiet _ _ ?_ hs
  split
  · exact .refl s
  · exact (s.setPool_table _).trans (State.notify_table _ _)

theorem execSenseQualified_claimsHeld (n : SenseId) (hs : s.ClaimsHeld) (h : execSenseQualified n s = .next t) :
    t.ClaimsHeld := by
  cases h
  refine State.event_claimsHeld _ _ hs fun _ => ?_
  have latched := ((s.setSense_table n { s.senses[n] with qualifier := .high }).trans
    (State.occur_table _ (senseCond n))).claimsHeld hs
  unfold State.qualifySense
  dsimp only
  split
  · exact latched
  · exact State.fireWaiting_claimsHeld latched _

/-- Every command keeps the claims with their plans: those of the plan controller and the triggers by what each does
with its plan, and the others by leaving the table and the claims. -/
theorem exec_claimsHeld (c : Instr) (s t : State) (hs : s.ClaimsHeld) (h : exec c s = .next t) : t.ClaimsHeld := by
  cases c
  case planLoad => cases h; exact State.execute_claimsHeld _ _ hs planLoadRequest_claimsHeld
  case planArm => cases h; exact State.execute_claimsHeld _ _ hs (planRequest_claimsHeld _ armRequest_claimsHeld)
  case planFire => cases h; exact State.execute_claimsHeld _ _ hs (planRequest_claimsHeld _ fireRequest_claimsHeld)
  case planCancel first =>
    cases h
    exact State.execute_claimsHeld _ _ hs (planRequest_claimsHeld _ (cancelRequest_claimsHeld first))
  case planRelease =>
    cases h
    exact State.execute_claimsHeld _ _ hs (planRequest_claimsHeld _ releaseRequest_claimsHeld)
  case editSettle e => exact execEditSettle_claimsHeld e hs h
  case armExpiry k => exact execArmExpiry_claimsHeld k hs h
  case groupWaitExpiry k first => exact execGroupWaitExpiry_claimsHeld k first hs h
  case qualificationComplete =>
    cases h
    exact State.event_claimsHeld _ _ hs fun _ => State.takeGroupFire_claimsHeld ((s.setGroup_table _).claimsHeld hs)
  case senseQualified n => exact execSenseQualified_claimsHeld n hs h
  case trackerRead p => exact execTrackerRead_claimsHeld p hs h
  case hardwareReset => cases h; exact State.enterReset_claimsHeld _ _ _
  case hardwareResetEnd i => exact execHardwareResetEnd_claimsHeld i hs h
  case restartEnd straps => exact execRestartEnd_claimsHeld straps hs h
  case sendComplete => exact execSendComplete_claimsHeld hs h
  case requestArrival => cases h; exact State.event_quiet _ _ (s.messageReceived_table _ _ _) hs
  case checkFailure => cases h; exact State.event_quiet _ _ s.messageDiscarded_table hs
  case lenOutOfRange => cases h; exact State.event_quiet _ _ (s.setLink_table _) hs
  case gapTimerExpiry =>
    cases h
    exact State.event_quiet _ _ ((s.setLink_table _).trans (State.occur_table _ _)) hs
  case byteReceived => cases h; exact State.event_quiet _ _ (s.takeByte_table _ _) hs
  case unknownRequestKind => cases h; exact State.execute_quiet _ _ (fun _ t => .refl t) hs
  case echo => cases h; exact State.execute_quiet _ _ (fun m t => by unfold echoRequest; split <;> exact .refl t) hs
  case status => cases h; exact State.execute_quiet _ _ (fun m t => by unfold statusRequest; split <;> exact .refl t) hs
  case restart => cases h; exact State.execute_quiet _ _ restartRequest_table hs
  case setFraming => cases h; exact State.execute_quiet _ _ setFramingRequest_table hs
  case setPort => cases h; exact State.execute_quiet _ _ setPortRequest_table hs
  case portStatus => cases h; exact State.execute_quiet _ _ portStatusRequest_table hs
  case connect => cases h; exact State.execute_quiet _ _ connectRequest_table hs
  case mapRead =>
    cases h
    exact State.execute_quiet _ _ (fun m t => by unfold mapReadRequest; split <;> exact .refl t) hs
  case guardControl => cases h; exact State.execute_quiet _ _ guardControlRequest_table hs
  case planRead => cases h; exact State.execute_quiet _ _ planReadRequest_table hs
  case groupConfig => cases h; exact State.execute_quiet _ _ groupConfigRequest_table hs
  case groupStatus =>
    cases h
    exact State.execute_quiet _ _ (fun m t => by unfold groupStatusRequest; split <;> exact .refl t) hs
  case patternConfig => cases h; exact State.execute_quiet _ _ patternConfigRequest_table hs
  case injectStart => cases h; exact State.execute_quiet _ _ injectStartRequest_table hs
  case injectCont => cases h; exact State.execute_quiet _ _ injectContRequest_table hs
  case injectAbort => cases h; exact State.execute_quiet _ _ injectAbortRequest_table hs
  case poolStatus =>
    cases h
    exact State.execute_quiet _ _ (fun m t => by unfold poolStatusRequest; split <;> exact .refl t) hs
  case conditionsRead =>
    cases h
    exact State.execute_quiet _ _ (fun m t => by unfold conditionsReadRequest; split <;> exact .refl t) hs
  case conditionsClear => cases h; exact State.execute_quiet _ _ conditionsClearRequest_table hs
  case subscribe => cases h; exact State.execute_quiet _ _ subscribeRequest_table hs
  case sdDeassert p => exact execSdDeassert_claimsHeld p hs h
  case sdAssert p => exact execSdAssert_claimsHeld p hs h
  case sdLossTimerExpiry p => cases h; exact State.event_quiet _ _ (s.putIngress_table p _) hs
  case characterReceived p c re => cases h; exact State.event_quiet _ _ (s.putIngress_table p _) hs
  case noiseWindowEnd p => exact execNoiseWindowEnd_claimsHeld p hs h
  case trafficTimerExpiry p => cases h; exact State.event_quiet _ _ (s.putIngress_table p _) hs
  case drainEnd e => exact execDrainEnd_claimsHeld e hs h
  case deadlineExpiry e => cases h; exact State.event_quiet _ _ (s.expireDeadline_selector e).table hs
  case joinComplete e => cases h; exact State.event_quiet _ _ (s.tryJoin_selector e).table hs
  case holdOffExpiry e => exact execHoldOffExpiry_claimsHeld e hs h
  case waitToRestoreExpiry e => cases h; exact State.event_quiet _ _ (s.guardSwitch_reach e _ _ _).table hs
  case grdyLevelChange high => exact execGrdyLevelChange_claimsHeld high hs h
  case holdExpiry => cases h; exact State.event_quiet _ _ s.groupHoldEnds_table hs
  case faultTimerExpiry =>
    cases h
    exact State.event_quiet _ _ ((s.setGroup_table _).trans (State.occur_table _ _)) hs
  case patternFrameStart => cases h; exact State.event_quiet _ _ ⟨rfl, rfl⟩ hs
  case injectFrameStart e => cases h; exact State.event_quiet _ _ (s.startFrame_table e) hs
  case injectFrameSent e => cases h; exact State.event_quiet _ _ (s.sendShut_table e) hs
  case assemblyTimeout k => exact execAssemblyTimeout_claimsHeld k hs h
  case senseRise n => exact execSenseRise_claimsHeld n hs h
  case senseFall n => exact execSenseFall_claimsHeld n hs h

/-! ### One character time (log entry 5) -/

/-- A character time moves the timers of plans, and nothing else of them (section 0.7). -/
theorem State.runNewTime_claimsHeld (hs : s.ClaimsHeld) : s.runNewTime.ClaimsHeld := by
  obtain ⟨hids, hwf, hheld⟩ := hs
  have frame := s.runNewTime_sources.frame
  have hplan (k : SlotId) : s.runNewTime.plans[k]
      = s.plans[k].map fun p : Plan => { p with timer := p.timer.map fun n => n - 1 } := by
    rw [frame]
    exact clocksNewTime_plan s k
  have hclaims : s.runNewTime.claims = s.claims := by rw [frame]; rfl
  refine ⟨fun j k p q hj hk hid => ?_, fun k p hk => ?_, fun e id he => ?_⟩
  · rw [hplan] at hj hk
    obtain ⟨p, hp, rfl⟩ := Option.map_eq_some_iff.mp hj
    obtain ⟨q, hq, rfl⟩ := Option.map_eq_some_iff.mp hk
    exact hids j k p q hp hq hid
  · rw [hplan] at hk
    obtain ⟨p, hp, rfl⟩ := Option.map_eq_some_iff.mp hk
    exact hwf k p hp
  · rw [hclaims] at he
    obtain ⟨k, p, hp, hid, hold⟩ := hheld e id he
    exact ⟨k, { p with timer := p.timer.map fun n => n - 1 }, by rw [hplan, hp, Option.map_some], hid, hold⟩

theorem State.newTime_claimsHeld (hs : s.ClaimsHeld) : s.newTime.ClaimsHeld := by
  cases hp : s.phase with
  | run =>
    rw [State.newTime_run hp]
    exact State.runNewTime_claimsHeld hs
  | restart left =>
    rw [State.newTime_restart hp]
    exact State.TableStays.claimsHeld ⟨rfl, rfl⟩ hs
  | hardwareReset cause =>
    rw [State.newTime_hardwareReset hp]
    exact hs

end

/-- Settles O58: every command, and a character time with nothing due, keeps the claims with their plans. -/
theorem everyStepKeepsClaimsWithTheirPlans : Obligations.EveryStepKeepsClaimsWithTheirPlans :=
  keptByStep_of_exec _ (fun _ _ h => h) (fun _ _ h => h) exec_claimsHeld fun _ hs _ => State.newTime_claimsHeld hs

end Sys2Proof.Machine
end

section
/-! PLAN_RELEASE and PLAN_READ (R93 to R95, R181). -/

namespace Sys2Proof.Machine

/-! ### Requests that name one plan (R75, R93, R95) -/

section
variable {s : State} {m : Message} {rest : List Message} {id : Byte} {k : SlotId} {p : Plan}

theorem planRequest_zero (act : SlotId → Plan → State → Answer × State) (t : State) (hm : m.payload = [0]) :
    planRequest act m t = (Answer.refuse .badField, t) := by
  unfold planRequest
  rw [hm]
  exact if_pos rfl

theorem planRequest_unknown (act : SlotId → Plan → State → Answer × State) (t : State) (hm : m.payload = [id])
    (h0 : id ≠ 0) (h : t.findPlan id = none) : planRequest act m t = (Answer.refuse .noPlan, t) := by
  unfold planRequest
  rw [hm]
  dsimp only
  rw [if_neg h0, h]

theorem planRequest_found (act : SlotId → Plan → State → Answer × State) (t : State) (hm : m.payload = [id])
    (h0 : id ≠ 0) (h : t.findPlan id = some (k, p)) : planRequest act m t = act k p t := by
  unfold planRequest
  rw [hm]
  dsimp only
  rw [if_neg h0, h]

theorem execPlanRelease_eq (h : s.CanTake m rest 0x35) : exec .planRelease s
    = .next ((planRequest releaseRequest m (s.taken rest)).2.replied m
        (planRequest releaseRequest m (s.taken rest)).1) :=
  congrArg Host.Outcome.next (s.execute_kind m rest 0x35 (planRequest releaseRequest) h)

theorem releaseRequest_live (t : State) (h : p.state = .armed ∨ p.state = .applying) :
    releaseRequest k p t = (Answer.refuse .wrongState, t) := by
  unfold releaseRequest
  rcases h with h | h <;> rw [h]

theorem releaseRequest_over (t : State)
    (h : p.state = .loaded ∨ p.state = .done ∨ p.state = .expired ∨ p.state = .cancelled) :
    releaseRequest k p t = (Answer.ok [natByte k.val], t.setPlan k none) := by
  unfold releaseRequest
  rcases h with h | h | h | h <;> rw [h]

theorem execPlanRead_eq (h : s.CanTake m rest 0x34) : exec .planRead s
    = .next ((planReadRequest m (s.taken rest)).2.replied m (planReadRequest m (s.taken rest)).1) :=
  congrArg Host.Outcome.next (s.execute_kind m rest 0x34 planReadRequest h)

/-- Id 0 asks for the table (R94). -/
theorem planReadRequest_table_of_zero (t : State) (hm : m.payload = [0]) :
    planReadRequest m t = (Answer.ok t.planSummary, t) := by
  unfold planReadRequest
  rw [hm]
  exact if_pos rfl

theorem planReadRequest_unknown (t : State) (hm : m.payload = [id]) (h0 : id ≠ 0) (h : t.findPlan id = none) :
    planReadRequest m t = (Answer.refuse .noPlan, t) := by
  unfold planReadRequest
  rw [hm]
  dsimp only
  rw [if_neg h0, h]

theorem planReadRequest_found (t : State) (hm : m.payload = [id]) (h0 : id ≠ 0) (h : t.findPlan id = some (k, p)) :
    planReadRequest m t = (Answer.ok (p.encode k), t) := by
  unfold planReadRequest
  rw [hm]
  dsimp only
  rw [if_neg h0, h]

end

/-! ### The bytes of a plan (R181) -/

theorem presentHalf_length (h : Option Half) : (presentHalf h).length = 3 := by cases h <;> rfl

theorem presentWord_length (w : Option Word32) : (presentWord w).length = 5 := by cases w <;> rfl

theorem Edit.encode_length (d : Edit) : d.encode.length = 8 := by
  unfold Edit.encode
  rw [List.length_append, List.length_cons, d.entry.encode_length]
  rfl

theorem Plan.encode_length (k : SlotId) (p : Plan) : (p.encode k).length = 28 + 8 * p.edits.length := by
  have hedits : (p.edits.flatMap Edit.encode).length = 8 * p.edits.length := by
    rw [List.length_flatMap, List.map_congr_left fun d _ => d.encode_length, List.map_const', List.sum_replicate,
      smul_eq_mul, Nat.mul_comm]
  have hhalf (n : Nat) : (natHalf n).length = 2 := rfl
  unfold Plan.encode
  simp only [List.length_append, hedits, hhalf, presentHalf_length, presentWord_length, List.length_cons,
    List.length_nil]

theorem Edit.encode_fields (d : Edit) : d.encode = natByte d.egress.val :: d.entry.encode
    ++ [match d.outcome with
      | none => 0xFF
      | some o => o.outcome.code + (if o.sourceDown then 8 else 0)] := by
  unfold Edit.encode
  cases d.outcome with
  | none => rfl
  | some o =>
    have hcode : outcomeByte o.outcome false o.sourceDown = o.outcome.code + (if o.sourceDown then 8 else 0) := by
      simp [outcomeByte]
    exact congrArg (fun b => natByte d.egress.val :: d.entry.encode ++ [b]) hcode

/-- The timer field of a plan (R93; log entry 31). -/
theorem planTimer_eq (timer : Option Nat) : presentHalf (timer.map fun t => BitVec.ofNat 16 (ctToMsUp t))
    = match timer with
      | none => [0, 0, 0]
      | some left => 1 :: natHalf (max 1 ((left + 99999) / 100000)) := by
  cases timer with
  | none => rfl
  | some left =>
    rw [Option.map_some, ctToMsUp_max]
    rfl

theorem State.planSummary_length (s : State) : s.planSummary.length = 40 := by
  unfold State.planSummary
  rw [List.length_append, List.length_flatMap, List.map_congr_left fun _ _ => show (slotSummary _).length = 3 from rfl,
    List.map_const', List.sum_replicate, List.length_map, Vector.length_toList, Vector.length_toList]
  rfl

/-- Settles O42: the answers of the two requests, and the bytes of the reports. -/
theorem planReleaseFreesAndPlanReadReports : Obligations.PlanReleaseFreesAndPlanReadReports := by
  intro s m rest id hm
  refine ⟨fun hcan => ⟨fun h0 => ?_, fun h0 hnone => ?_, fun k p h0 hfound => ⟨fun hlive => ?_, fun hover => ?_⟩⟩,
    fun hcan => ⟨fun h0 => ?_, fun h0 hnone => ?_, fun k p h0 hfound => ?_⟩, s.planSummary_length, ?_,
    fun k p => ⟨p.encode_length k, ?_⟩, fun h => rfl, rfl, fun w => rfl, rfl, rfl, rfl⟩
  · rw [execPlanRelease_eq hcan, planRequest_zero _ _ (h0 ▸ hm)]
  · rw [execPlanRelease_eq hcan, planRequest_unknown _ (s.taken rest) hm h0 hnone]
  · rw [execPlanRelease_eq hcan, planRequest_found _ (s.taken rest) hm h0 hfound, releaseRequest_live _ hlive]
  · rw [execPlanRelease_eq hcan, planRequest_found _ (s.taken rest) hm h0 hfound, releaseRequest_over _ hover]
  · rw [execPlanRead_eq hcan, planReadRequest_table_of_zero _ (h0 ▸ hm)]
    rfl
  · rw [execPlanRead_eq hcan, planReadRequest_unknown (s.taken rest) hm h0 hnone]
  · rw [execPlanRead_eq hcan, planReadRequest_found (s.taken rest) hm h0 hfound]
  · refine congrArg (· ++ s.claims.toList.map fun c => c.getD 0) (List.flatMap_congr fun p _ => ?_)
    cases p <;> rfl
  · have hreason : (p.reason.map ExpiryReason.code).getD absent = match p.reason with
        | none => 0xFF
        | some x => x.code := by cases p.reason <;> rfl
    unfold Plan.encode
    rw [planTimer_eq, hreason, funext Edit.encode_fields]
    rfl

end Sys2Proof.Machine
end

section
/-! The sense inputs (R142), and the group fire, the end of the hold and line events at the group interface (R79, R97,
R103 to R105). -/

namespace Sys2Proof.Machine

section
variable {s : State}

/-! ### Sense inputs (R142) -/

theorem Sense.rise_low (k : Sense) (h : k.qualifier = .low) :
    k.rise = { level := true, qualifier := .qualifying 20 } := by
  unfold Sense.rise
  rw [h]

theorem Sense.rise_high (k : Sense) (h : k.qualifier ≠ .low) : k.rise = { k with level := true } := by
  unfold Sense.rise
  cases hq : k.qualifier with
  | low => exact absurd hq h
  | qualifying left => rfl
  | high => rfl

theorem execSenseRise_run (n : SenseId) (hp : s.phase = .run) :
    exec (.senseRise n) s = .next (s.setSense n s.senses[n].rise).arbitrate := by
  show execSenseRise n s = _
  unfold execSenseRise
  rw [hp]
  dsimp only
  rw [s.event_taken true _ hp rfl]

theorem execSenseFall_run (n : SenseId) (hp : s.phase = .run) :
    exec (.senseFall n) s = .next (s.setSense n { level := false, qualifier := .low }).arbitrate := by
  show execSenseFall n s = _
  unfold execSenseFall
  rw [hp]
  dsimp only
  rw [s.event_taken true _ hp rfl]
  rfl

theorem execSenseQualified_run (n : SenseId) {left : Nat} (hp : s.phase = .run)
    (hq : s.senses[n].qualifier = .qualifying left) :
    exec (.senseQualified n) s = .next (s.qualifySense n).arbitrate :=
  congrArg Host.Outcome.next (s.event_taken _ _ hp (by rw [hq]; rfl))

/-- A plan that alone waits on a trigger fires (R82). -/
theorem State.fireWaiting_one (g : Trigger) {k : SlotId} (h : s.waitingOn g = [k]) :
    s.fireWaiting g = s.firePlan k none false := by
  unfold State.fireWaiting
  rw [h]
  rfl

end

/-- Settles O53: the qualifier's three events, the third by the latch of its condition. -/
theorem senseInputsQualifyAndFire : Obligations.SenseInputsQualifyAndFire := by
  intro s n hp
  refine ⟨fun hq => ?_, fun hq => ?_, execSenseFall_run n hp, fun left c hq hc => ?_⟩
  · rw [execSenseRise_run n hp, Sense.rise_low _ hq]
  · rw [execSenseRise_run n hp, Sense.rise_high _ hq]
  · obtain rfl : c = senseCond n := Fin.ext hc
    intro t
    have fires (h : s.conds[senseCond n].latch = false) : s.qualifySense n = t.fireWaiting (.sense n) :=
      if_neg (Bool.eq_false_iff.mp h)
    refine ⟨fun h => ?_, fun h => ?_, fun k h hk => ?_⟩
    · rw [execSenseQualified_run n hp hq, show s.qualifySense n = t from if_pos h]
    · rw [execSenseQualified_run n hp hq, fires h]
    · rw [execSenseQualified_run n hp hq, fires h, State.fireWaiting_one (.sense n) hk]

section
variable {s : State}

/-! ### The ARMED GROUP plan (R79) -/

/-- The plan in a slot is an ARMED GROUP plan. -/
theorem State.armedGroupSlot_some {k : SlotId} (h : s.armedGroupSlot = some k) :
    ∃ p, s.plans[k] = some p ∧ p.state = .armed ∧ p.trigger.isGroup = true := by
  have hk := ((find_allSlots _ k).mp h).1
  cases hp : s.plans[k] with
  | none => simp [hp] at hk
  | some p =>
    simp only [hp, Bool.and_eq_true, decide_eq_true_eq] at hk
    exact ⟨p, rfl, hk⟩

theorem State.armedGroupSlot_none : s.armedGroupSlot = none ↔
    ∀ (k : SlotId) (p : Plan), s.plans[k] = some p → p.state = .armed → p.trigger.isGroup = false := by
  unfold State.armedGroupSlot allSlots
  rw [List.find?_eq_none]
  refine ⟨fun h k p hk ha => ?_, fun h k _ => ?_⟩
  · have := h k (List.mem_finRange k)
    simpa [hk, ha] using this
  · cases hk : s.plans[k] with
    | none => exact Bool.false_ne_true
    | some p => simpa using h k p hk

/-! ### The group fire (R104) -/

/-- The group fire takes a member to HOLD, its drive RELEASED, so that the level and an episode stay (R97, R108). -/
theorem Group.fire_eq (g : Group) : g.fire = { g with
    membership := .member (.hold 2000), faultTimer := none, epoch := g.epoch + 1
    plan := g.plan.map fun r => { r with applying := true } } := by
  have hpulls : g.pullsDown (.member (.hold holdCt)) = false := rfl
  simp only [Group.fire, Group.moveTo, hpulls, Bool.false_and, Bool.not_false, Bool.and_true]
  rfl

theorem execQualificationComplete_run (hp : s.phase = .run) (hq : s.group.qualifying = true) :
    exec .qualificationComplete s = .next ((s.setGroup s.group.fire).takeGroupFire).arbitrate :=
  congrArg Host.Outcome.next (s.event_taken _ _ hp hq)

theorem State.takeGroupFire_none (h : s.armedGroupSlot = none) : s.takeGroupFire = s := by
  unfold State.takeGroupFire
  rw [h]

theorem State.takeGroupFire_some {k : SlotId} (h : s.armedGroupSlot = some k) :
    s.takeGroupFire = s.firePlan k (some s.group.epoch) false := by
  unfold State.takeGroupFire
  rw [h]

/-! ### The ready condition (R102) decides what the interface enters (R101, R105) -/

theorem State.groupEnter_ready {r : GroupPlan} (h : s.groupReady r = true) :
    s.groupEnter r = s.groupTo (.member (.released (if s.group.high then some 200 else none))) := if_pos h

theorem State.groupEnter_waits {r : GroupPlan} (h : s.groupReady r = false) :
    s.groupEnter r = s.groupTo (.member .lowWait) := if_neg (Bool.eq_false_iff.mp h)

theorem execHoldExpiry_run {left : Nat} (hp : s.phase = .run) (hm : s.group.membership = .member (.hold left)) :
    exec .holdExpiry s = .next s.groupHoldEnds.arbitrate :=
  congrArg Host.Outcome.next (s.event_taken _ _ hp (by unfold Group.holding; rw [hm]))

theorem State.groupHoldEnds_none (h : s.group.plan = none) : s.groupHoldEnds = s.groupTo (.member .lowIdle) := by
  unfold State.groupHoldEnds
  rw [h]

theorem State.groupHoldEnds_some {r : GroupPlan} (h : s.group.plan = some r) :
    s.groupHoldEnds = if r.applying then s.groupTo (.member .lowIdle) else s.groupEnter r := by
  unfold State.groupHoldEnds
  rw [h]

/-! ### Line events (R103) -/

theorem State.groupLineEvent_wait {r : GroupPlan} (hr : s.group.plan = some r)
    (hm : s.group.membership = .member .lowWait) :
    s.groupLineEvent = if s.groupReady r then s.groupRelease else s := by
  unfold State.groupLineEvent
  rw [hr, hm]

theorem State.groupLineEvent_released {r : GroupPlan} {q : Option Nat} (hr : s.group.plan = some r)
    (hm : s.group.membership = .member (.released q)) :
    s.groupLineEvent = if s.groupReady r then s else s.groupTo (.member .lowWait) := by
  unfold State.groupLineEvent
  rw [hr, hm]

/-- With no group plan, and outside LOW_WAIT and RELEASED, nothing comes of a line event. -/
theorem State.groupLineEvent_ignored (h : s.group.plan = none ∨ (¬ s.group.membership = .member .lowWait
    ∧ ¬ ∃ q, s.group.membership = .member (.released q))) : s.groupLineEvent = s := by
  unfold State.groupLineEvent
  rcases h with h | ⟨hwait, hreleased⟩
  · rw [h]
  · cases s.group.plan with
    | none => rfl
    | some r =>
      dsimp only
      split
      · exact absurd ‹_› hwait
      · exact absurd ⟨_, ‹_›⟩ hreleased
      all_goals rfl

end

/-- Settles O46: the group fire with the plan that it fires, the end of the hold, and line events, each by the state
of the interface. -/
theorem groupFireAdvancesTheEpochAndHolds : Obligations.GroupFireAdvancesTheEpochAndHolds := by
  refine ⟨fun s hp hq => ?_, fun s => State.armedGroupSlot_none, fun s left hp hm => ?_, fun s => ?_⟩
  · intro t
    have hfire : s.setGroup s.group.fire = t := congrArg s.setGroup s.group.fire_eq
    refine ⟨fun k hk => ?_, fun hk => ?_, fun k => State.armedGroupSlot_some⟩
    · rw [execQualificationComplete_run hp hq, hfire, State.takeGroupFire_some (s := t) hk]
      rfl
    · rw [execQualificationComplete_run hp hq, hfire, State.takeGroupFire_none (s := t) hk]
  · refine ⟨fun hplan => ?_, fun r hr => ⟨fun ha => ?_, fun ha hready => ?_, fun ha hready => ?_⟩⟩
    · rw [execHoldExpiry_run hp hm, State.groupHoldEnds_none hplan]
    · rw [execHoldExpiry_run hp hm, State.groupHoldEnds_some hr, if_pos ha]
    · rw [execHoldExpiry_run hp hm, State.groupHoldEnds_some hr, if_neg (Bool.eq_false_iff.mp ha),
        State.groupEnter_ready hready]
    · rw [execHoldExpiry_run hp hm, State.groupHoldEnds_some hr, if_neg (Bool.eq_false_iff.mp ha),
        State.groupEnter_waits hready]
  · refine ⟨State.groupLineEvent_ignored, fun r hr => ⟨fun hm h => ?_, ?_, fun hm h => ?_, ?_⟩⟩
    · exact (State.groupLineEvent_wait hr hm).trans (if_neg (Bool.eq_false_iff.mp h))
    · rintro ⟨q, hm⟩ h
      exact (State.groupLineEvent_released hr hm).trans (if_pos h)
    · exact (State.groupLineEvent_wait hr hm).trans (if_pos h)
    · rintro ⟨q, hm⟩ h
      exact (State.groupLineEvent_released hr hm).trans (if_neg (Bool.eq_false_iff.mp h))

end Sys2Proof.Machine
end

section
/-! The moves of the group interface, the level of GRDY and its fault timer (R97, R98, R104, R108). -/

namespace Sys2Proof.Machine

/-! ### A move to a membership or member state (R98) -/

/-- The drive is RELEASED in RELEASED and HOLD, and while NON_MEMBER (R98). -/
theorem Membership.driveLow_eq_false_iff (m : Membership) : m.driveLow = false ↔
    m = .nonMember ∨ (∃ q, m = .member (.released q)) ∨ ∃ left, m = .member (.hold left) := by
  cases m with
  | unset => simp [Membership.driveLow]
  | nonMember => simp [Membership.driveLow]
  | member x => cases x <;> simp [Membership.driveLow]

theorem Group.pullsDown_iff (g : Group) (m : Membership) :
    g.pullsDown m = true ↔ m.driveLow = true ∧ g.driveLow = false ∧ g.high = true := by
  simp [Group.pullsDown, and_assoc]

section
variable (g : Group) {m : Membership}

/-- A move that pulls down no line that reads HIGH leaves the level and an episode (R97, R108). -/
theorem Group.moveTo_of_not_pullsDown (sound : Bool) (h : g.pullsDown m = false) :
    g.moveTo m sound
      = { g with membership := m, faultTimer := if m.driveLow then g.faultTimer else none } := by
  cases hm : m.driveLow <;> simp [Group.moveTo, h, hm]

/-- On sound wiring the line falls (R97). -/
theorem Group.moveTo_sound (h : g.pullsDown m = true) :
    g.moveTo m true = { g with membership := m, high := false, faultTimer := none, episode := false } := by
  simp [Group.moveTo, h]

/-- A line that stays HIGH starts the fault timer, unless an episode is in progress (R108). -/
theorem Group.moveTo_unsound (h : g.pullsDown m = true) :
    g.moveTo m false
      = { g with membership := m, faultTimer := if g.episode then g.faultTimer else some 200 } := by
  have hm : m.driveLow = true := ((g.pullsDown_iff m).mp h).1
  have hfault : faultCt = 200 := rfl
  cases he : g.episode <;> simp [Group.moveTo, h, hm, he, hfault]

end

section
variable (s : State) {m : Membership}

theorem State.groupTo_of_not_pullsDown (h : s.group.pullsDown m = false) :
    s.groupTo m = s.setGroup (s.group.moveTo m (Config.grdySound s.draws)) := by
  unfold State.groupTo
  rw [if_neg (Bool.eq_false_iff.mp h)]

/-- Whether the wiring is sound is drawn where the part begins to pull down a line that reads HIGH (log entry 19). -/
theorem State.groupTo_of_pullsDown (h : s.group.pullsDown m = true) :
    s.groupTo m = (s.setDraws (s.draws + 1)).setGroup (s.group.moveTo m (Config.grdySound s.draws)) := by
  unfold State.groupTo
  rw [if_pos h]

theorem State.groupTo_membership (m : Membership) : (s.groupTo m).group.membership = m := rfl

theorem State.groupTo_moves (m : Membership) : GroupMoves s m := by
  refine ⟨fun hstill => ?_, fun hpulls hsound => ?_, fun hpulls hsound => ?_, m.driveLow_eq_false_iff⟩
  · rw [← s.group.pullsDown_iff m, Bool.not_eq_true] at hstill
    rw [s.groupTo_of_not_pullsDown hstill, s.group.moveTo_of_not_pullsDown _ hstill]
  · rw [← s.group.pullsDown_iff m] at hpulls
    rw [s.groupTo_of_pullsDown hpulls, hsound, s.group.moveTo_sound hpulls]
  · rw [← s.group.pullsDown_iff m] at hpulls
    rw [s.groupTo_of_pullsDown hpulls, hsound, s.group.moveTo_unsound hpulls]

end

/-! ### The observed level changes (R97, R104, R108) -/

section
variable (g : Group) {high : Bool}

/-- The level already there changes nothing (log entry 26). -/
theorem Group.levelTo_same (h : g.high = high) : g.levelTo high = g := if_pos h

/-- What a new level leaves, and what becomes of the fault timer and of an episode (R108). -/
theorem Group.levelTo_changed (h : g.high ≠ high) :
    (g.levelTo high).high = high ∧ (g.levelTo high).plan = g.plan ∧ (g.levelTo high).epoch = g.epoch
      ∧ (g.levelTo high).faultTimer = (if high && g.driveLow && !g.episode then some 200 else none)
      ∧ (g.levelTo high).episode = (g.episode && high) := by
  unfold Group.levelTo
  rw [if_neg h]
  exact ⟨rfl, rfl, rfl, rfl, rfl⟩

/-- In RELEASED a HIGH level starts the qualification and a LOW one stops it (R104). -/
theorem Group.levelTo_released (h : g.high ≠ high) {q : Option Nat} (hm : g.membership = .member (.released q)) :
    (g.levelTo high).membership = .member (.released (if high then some 200 else none)) := by
  unfold Group.levelTo
  rw [if_neg h, hm]
  rfl

/-- Outside RELEASED a new level leaves the membership and the member state. -/
theorem Group.levelTo_not_released (h : g.high ≠ high) (hm : ∀ q, g.membership ≠ .member (.released q)) :
    (g.levelTo high).membership = g.membership := by
  unfold Group.levelTo
  rw [if_neg h]
  dsimp only
  split
  · exact absurd ‹_› (hm _)
  all_goals exact Eq.symm ‹_›

end

section
variable {s : State}

theorem execGrdyLevelChange_run (high : Bool) (hp : s.phase = .run) :
    exec (.grdyLevelChange high) s = .next (s.setGroup (s.group.levelTo high)).arbitrate := by
  show execGrdyLevelChange high s = _
  unfold execGrdyLevelChange
  rw [hp]
  dsimp only
  rw [s.event_taken true _ hp rfl]

theorem execFaultTimerExpiry_run (hp : s.phase = .run) (hf : s.group.faultTimer.isSome) :
    exec .faultTimerExpiry s
      = .next ((s.setGroup { s.group with faultTimer := none, episode := true }).occur grdyFault).arbitrate :=
  congrArg Host.Outcome.next (s.event_taken _ _ hp hf)

end

/-- Settles O45: the level already there, another level, the expiry of the fault timer, and every move. -/
theorem grdyLevelQualifiesOrFaults : Obligations.GrdyLevelQualifiesOrFaults := by
  refine fun s high hp => ⟨fun hsame => ?_, fun hnew => ?_, execFaultTimerExpiry_run hp, s.groupTo_moves⟩
  · rw [execGrdyLevelChange_run high hp, s.group.levelTo_same hsame]
    rfl
  · obtain ⟨hhigh, hplan, hepoch, htimer, hepisode⟩ := s.group.levelTo_changed hnew
    refine ⟨s.group.levelTo high, execGrdyLevelChange_run high hp, hhigh, hplan, hepoch,
      fun q => s.group.levelTo_released hnew, s.group.levelTo_not_released hnew, fun h hlow hno => ?_,
      fun h hnone => ?_, fun h => ⟨?_, ?_⟩, fun h => ?_⟩
    · rw [htimer, h, hlow, hno]
      rfl
    · rw [htimer]
      rcases hnone with hreleased | hin
      · simp [hreleased]
      · simp [hin]
    · rw [htimer, h]
      rfl
    · rw [hepisode, h, Bool.and_false]
    · rw [hepisode, h, Bool.and_true]

end Sys2Proof.Machine
end

section
/-! GROUP_CONFIG and GROUP_STATUS (R100, R110). -/

namespace Sys2Proof.Machine

section
variable {s : State} {m : Message} {rest : List Message}

/-! ### GROUP_CONFIG (R100) -/

theorem execGroupConfig_eq (h : s.CanTake m rest 0x40) : exec .groupConfig s
    = .next ((groupConfigRequest m (s.taken rest)).2.replied m (groupConfigRequest m (s.taken rest)).1) :=
  congrArg Host.Outcome.next (s.execute_kind m rest 0x40 groupConfigRequest h)

theorem readMembership_above (b : Byte) (h : 3 ≤ b.toNat) : readMembership b = none := by
  revert b; decide

theorem readMembership_below (b : Byte) (h : b.toNat < 3) :
    readMembership b = some (if b = 0 then .unset else if b = 1 then .member .lowIdle else .nonMember) := by
  revert b; decide

/-- The membership that a GROUP_CONFIG asks for has the code it was asked by, and a MEMBER starts in LOW_IDLE. -/
theorem readMembership_codes (b : Byte) : ∀ next ∈ readMembership b,
    next.code = b ∧ next.memberCode = if b = 1 then 0 else 0xFF := by
  revert b; decide

section
variable (t : State) {b : Byte} {next : Membership}

theorem groupConfigRequest_unread (hm : m.payload = [b]) (hread : readMembership b = none) :
    groupConfigRequest m t = (Answer.refuse .badField, t) := by
  unfold groupConfigRequest
  rw [hm]
  dsimp only
  rw [hread]

theorem groupConfigRequest_read (hm : m.payload = [b]) (hread : readMembership b = some next) :
    groupConfigRequest m t
      = if b = t.group.membership.code then (Answer.ok t.groupReport, t)
        else if t.group.membership.isMember && t.groupBusy then (Answer.refuse .wrongState, t)
        else (Answer.ok [b, if b = 1 then 0 else 0xFF], t.groupTo next) := by
  obtain ⟨hcode, hmember⟩ := readMembership_codes b next hread
  have hreport : (t.groupTo next).groupReport = [b, if b = 1 then 0 else 0xFF] := by
    unfold State.groupReport
    rw [t.groupTo_membership, hcode, hmember]
  unfold groupConfigRequest
  rw [hm]
  dsimp only
  rw [hread]
  dsimp only
  rw [hcode, hreport]

end

/-! ### GROUP_STATUS (R102, R110, R176) -/

theorem execGroupStatus_eq (h : s.CanTake m rest 0x41) : exec .groupStatus s
    = .next ((groupStatusRequest m (s.taken rest)).2.replied m (groupStatusRequest m (s.taken rest)).1) :=
  congrArg Host.Outcome.next (s.execute_kind m rest 0x41 groupStatusRequest h)

theorem groupStatusRequest_ok (t : State) (hm : m.payload = []) :
    groupStatusRequest m t = (Answer.ok t.groupStatusResult, t) := by
  unfold groupStatusRequest
  rw [hm]

theorem groupStatusRequest_length (t : State) (hm : m.payload ≠ []) :
    groupStatusRequest m t = (Answer.refuse .badLength, t) := by
  unfold groupStatusRequest
  split
  · exact absurd ‹_› hm
  · rfl

theorem flagByte_not (b : Bool) : flagByte (!b) = if b then 0 else 1 := by cases b <;> rfl

theorem State.readyByte_some {r : GroupPlan} (h : s.group.plan = some r) :
    s.readyByte = if r.applying then 0xFF else if s.groupReady r then 1 else 0 := by
  unfold State.readyByte
  rw [h]
  rfl

theorem State.readyByte_none (h : s.group.plan = none) : s.readyByte = 0xFF := by
  unfold State.readyByte
  rw [h]
  rfl

/-- Four single bytes, the epoch, three bytes of the group plan, and two flags. -/
theorem State.groupStatusResult_length (s : State) : s.groupStatusResult.length = 11 := rfl

theorem Group.qualifying_iff (g : Group) :
    g.qualifying = true ↔ ∃ left, g.membership = .member (.released (some left)) := by
  unfold Group.qualifying
  cases g.membership with
  | unset => simp
  | nonMember => simp
  | member x =>
    cases x with
    | released q => cases q <;> simp
    | lowIdle | lowWait | hold _ => simp

theorem State.groupReady_iff (s : State) (r : GroupPlan) : s.groupReady r = true ↔ r.ready = .none
    ∨ ∀ p ∈ r.sources, s.ports[p].line = .quiet ∨ s.ports[p].line = .carry := by
  unfold State.groupReady
  cases hr : r.ready with
  | none => simp
  | sourcesFit => simp only [List.all_eq_true, LineState.fit_iff, reduceCtorEq, false_or]

end

/-- Settles O44: the answers of the two requests, and the bytes of GROUP_STATUS by what each stands for. -/
theorem groupConfigSetsMembership : Obligations.GroupConfigSetsMembership := by
  intro s m rest b
  have hrequest (hm : m.payload = [b]) (hb : b.toNat < 3) :=
    groupConfigRequest_read (s.taken rest) hm (readMembership_below b hb)
  refine ⟨fun hcan hm => ⟨fun hbad => ?_, fun hb hsame => ?_, fun hb hnew => ⟨fun hmember hbusy => ?_,
      fun hfree => ?_⟩⟩, fun hcan hm => ?_, fun hcan hm => ?_, s.groupStatusResult_length, ?_,
    s.group.qualifying_iff, s.groupReady_iff, fun _ => rfl, fun _ _ => rfl, s.group.membership.driveLow_eq_false_iff⟩
  · rw [execGroupConfig_eq hcan, groupConfigRequest_unread _ hm (readMembership_above b hbad)]
  · rw [execGroupConfig_eq hcan, (hrequest hm hb).trans (if_pos hsame), hsame]
    rfl
  · have hrefuse : (s.group.membership.isMember && s.groupBusy) = true := (Bool.and_eq_true _ _).mpr ⟨hmember, hbusy⟩
    rw [execGroupConfig_eq hcan, (hrequest hm hb).trans ((if_neg hnew).trans (if_pos hrefuse))]
  · have hmoves : (s.group.membership.isMember && s.groupBusy) = false := Bool.and_eq_false_iff.mpr hfree
    rw [execGroupConfig_eq hcan, (hrequest hm hb).trans
      ((if_neg hnew).trans (if_neg (Bool.eq_false_iff.mp hmoves)))]
  · rw [execGroupStatus_eq hcan, groupStatusRequest_ok _ hm]
    rfl
  · rw [execGroupStatus_eq hcan, groupStatusRequest_length _ hm]
  · unfold State.groupStatusResult
    rw [flagByte_not]
    cases hplan : s.group.plan with
    | none =>
      rw [State.readyByte_none hplan]
      rfl
    | some r =>
      rw [State.readyByte_some hplan]
      rfl

end Sys2Proof.Machine
end

section
/-! RESTART, the end of a message on MTX, and the restart that begins after the RESTART reply (R166, R169). -/

namespace Sys2Proof.Machine

section
variable {s : State} {m : Message} {rest : List Message}

theorem execRestart_eq (h : s.CanTake m rest 0x03) : exec .restart s
    = .next ((restartRequest m (s.taken rest)).2.replied m (restartRequest m (s.taken rest)).1) :=
  congrArg Host.Outcome.next (s.execute_kind m rest 0x03 restartRequest h)

/-- Restart pending is set and a partial message discarded; the reply carries the restart (R169). -/
theorem restartRequest_ok (t : State) (hm : m.payload = []) : restartRequest m t
    = ({ status := .ok, result := [], restart := true },
      t.setLink { t.link with restartPending := true, framer := .seek, gapTimer := none }) := by
  unfold restartRequest
  rw [hm]

end

theorem groupTo_pending (s : State) (m : Membership) : (s.groupTo m).pending = s.pending := by
  unfold State.groupTo
  split <;> rfl

section
variable {s : State} {m : Sending} (hp : s.phase = .run) (hm : s.link.mtx = some m)
include hp hm

theorem execSendComplete_reply (hr : m.restart = false) :
    exec .sendComplete s = .next (s.setLink { s.link with mtx := none }).arbitrate := by
  show execSendComplete s = _
  unfold execSendComplete
  rw [hp, hm]
  dsimp only
  rw [hr]
  rfl

theorem execSendComplete_restart (hr : m.restart = true) :
    exec .sendComplete s = .next s.beginRestart := by
  show execSendComplete s = _
  unfold execSendComplete
  rw [hp, hm]
  exact if_pos hr

end

/-- Settles O11: the request, the end of a message, and each block as the restart after the RESTART reply holds it. -/
theorem restartWaitsForItsReplyToBeSent : Obligations.RestartWaitsForItsReplyToBeSent := by
  refine ⟨fun s m rest hcan hm => ?_, fun s m hp hm => ⟨execSendComplete_reply hp hm, fun hr =>
    ⟨_, execSendComplete_restart hp hm hr, ?_⟩⟩⟩
  · rw [execRestart_eq hcan, restartRequest_ok _ hm]
    rfl
  · exact ⟨rfl, rfl, rfl, rfl, rfl, enterReset_port _ _ _,
      fun e => ⟨Vector.getElem_replicate e.isLt, Vector.getElem_replicate e.isLt, Vector.getElem_replicate e.isLt⟩,
      fun k => Vector.getElem_replicate k.isLt, rfl, groupTo_unset_level (s.setDraws (s.draws + 1)), rfl, rfl, rfl,
      fun c => Vector.getElem_replicate c.isLt, enterReset_sense _ _ _, groupTo_pending _ .unset,
      enterReset_txen _ _ _ (by nofun)⟩

end Sys2Proof.Machine
end

section
/-! The PATTERN generator (R114, R115, R117 to R119). -/

namespace Sys2Proof.Machine

/-! ### PATTERN_CONFIG (R117, R118) -/

section
variable {s : State} {m : Message} {rest : List Message}

theorem execPatternConfig_eq (h : s.CanTake m rest 0x50) : exec .patternConfig s
    = .next ((patternConfigRequest m (s.taken rest)).2.replied m (patternConfigRequest m (s.taken rest)).1) :=
  congrArg Host.Outcome.next (s.execute_kind m rest 0x50 patternConfigRequest h)

section
variable (t : State) {e lh ll gh gl : Byte} (hm : m.payload = [e, lh, ll, gh, gl])
include hm

/-- Settings in range are taken together, and the report shows them (R117, R118). -/
theorem patternConfigRequest_ok (he : e.toNat < 2)
    (hl : 4 ≤ (readHalf lh ll).toNat ∧ (readHalf lh ll).toNat ≤ 1024)
    (hg : 8 ≤ (readHalf gh gl).toNat ∧ (readHalf gh gl).toNat ≤ 4096) :
    let g := t.pattern.configure (decide (e = 1)) (readHalf lh ll).toNat (readHalf gh gl).toNat
    patternConfigRequest m t = (Answer.ok g.report, t.setPattern g) := by
  unfold patternConfigRequest
  rw [hm]
  dsimp only
  rw [readFlag_below e he]
  exact if_pos ⟨hl.1, hl.2, hg⟩

theorem patternConfigRequest_refused (h : 2 ≤ e.toNat ∨ (readHalf lh ll).toNat < 4 ∨ 1024 < (readHalf lh ll).toNat
    ∨ (readHalf gh gl).toNat < 8 ∨ 4096 < (readHalf gh gl).toNat) :
    patternConfigRequest m t = (Answer.refuse .badField, t) := by
  unfold patternConfigRequest
  rw [hm]
  dsimp only
  by_cases he : 2 ≤ e.toNat
  · rw [readFlag_above e he]
  · rw [readFlag_below e (Nat.not_le.mp he)]
    exact if_neg (by omega)

end

end

/-- The settings as the enable byte gives them: the numbering restarts where byte 1 meets a generator that is off
(R117). -/
theorem Pattern.configure_byte (g : Pattern) (e : Byte) (length gap : Nat) :
    g.configure (decide (e = 1)) length gap
      = { g with
          enable := decide (e = 1), length := length, gap := gap
          next := if e = 1 ∧ g.enable = false then 0 else g.next } := by
  simp [Pattern.configure]

/-! ### The report (section 10.5.5) -/

theorem Pattern.report_length (g : Pattern) : g.report.length = 11 := by
  simp [Pattern.report, natHalf, halfBytes, presentHalf_length]

/-! ### The frame start (R115) -/

section
variable (g : Pattern)

theorem Pattern.atFrameStart_iff : g.atFrameStart = true
    ↔ g.startDue = true ∨ (g.phase = .idle ∧ g.enable = true)
      ∨ ∃ seq length gap, g.phase = .gap seq length gap gap := by
  unfold Pattern.atFrameStart
  cases g.phase with
  | idle => simp
  | frame seq length gap pos => simp
  | gap seq length gap pos => simp [eq_comm (a := gap)]

theorem Pattern.frameStart_on (h : g.enable = true) : g.frameStart
    = ({ g with phase := .frame g.next g.length g.gap 0, next := g.next + 1, startDue := false }, .opn) :=
  if_pos h

theorem Pattern.frameStart_off (h : g.enable = false) :
    g.frameStart = ({ g with phase := .idle, startDue := false }, .fill) :=
  if_neg (Bool.eq_false_iff.mp h)

end

/-- A frame start that the generator is at, no egress closing the source, is taken at once (R115; log entry 35). -/
theorem execPatternFrameStart_taken {s : State} (hp : s.phase = .run) (hs : s.pattern.atFrameStart = true)
    (ho : s.sourceOpen .pattern = true) : exec .patternFrameStart s
      = .next ((s.setPattern s.pattern.frameStart.1).offer .pattern s.pattern.frameStart.2).arbitrate :=
  congrArg Host.Outcome.next (s.event_taken _ _ hp ((Bool.and_eq_true _ _).mpr ⟨hs, ho⟩))

/-- An egress that closes the source keeps the frame start back (R38; log entries 24 and 33). -/
theorem execPatternFrameStart_closed {s : State} (ho : s.sourceOpen .pattern = false) :
    exec .patternFrameStart s = .next s :=
  congrArg Host.Outcome.next (s.event_not_offered _ _ (Bool.and_eq_false_iff.mpr (.inr ho)))

/-! ### One character time (R114, R115, R119) -/

section
variable {g : Pattern} {seq : Half} {length gap pos : Nat}

theorem Pattern.newTime_idle (h : g.phase = .idle) :
    g.newTime = if g.enable then ({ g with startDue := true }, none) else (g, some .fill) := by
  unfold Pattern.newTime
  rw [h]

theorem Pattern.newTime_frame (h : g.phase = .frame seq length gap pos) :
    g.newTime
      = if pos < length then
          ({ g with phase := .frame seq length gap (pos + 1) }, some (.data (patternByte seq pos)))
        else if pos = length then ({ g with phase := .frame seq length gap (pos + 1) }, some .shut)
        else ({ g with phase := .gap seq length gap 1 }, some .fill) := by
  unfold Pattern.newTime
  rw [h]

theorem Pattern.newTime_gap (h : g.phase = .gap seq length gap pos) :
    g.newTime
      = if pos < gap then ({ g with phase := .gap seq length gap (pos + 1) }, some .fill)
        else ({ g with startDue := true }, none) := by
  unfold Pattern.newTime
  rw [h]

end

section
variable {s : State}

theorem State.patternNewTime_silent (h : s.pattern.newTime.2 = none) :
    s.patternNewTime = s.setPattern s.pattern.newTime.1 := by
  unfold State.patternNewTime
  dsimp only
  rw [h]

theorem State.patternNewTime_offers {c : Character} (h : s.pattern.newTime.2 = some c) :
    s.patternNewTime = (s.setPattern s.pattern.newTime.1).offer .pattern c := by
  unfold State.patternNewTime
  dsimp only
  rw [h]

end

/-! ### The bytes of a frame (R114) -/

section
variable (s : Half)

theorem patternByte_first : (patternByte s 0).toNat = s.toNat / 256 := by
  have := s.isLt
  simp only [patternByte, if_true, BitVec.extractLsb'_toNat, Nat.shiftRight_eq_div_pow]
  omega

theorem patternByte_second : (patternByte s 1).toNat = s.toNat % 256 := by
  simp [patternByte, BitVec.extractLsb'_toNat]

theorem patternByte_later {i : Nat} (h : 2 ≤ i) : (patternByte s i).toNat = (s.toNat + 7 * i) % 256 := by
  unfold patternByte
  rw [if_neg (by omega), if_neg (by omega), BitVec.toNat_ofNat]

end

/-- Settles O47: the request's two answers, the frame start, each phase's character time, and the bytes of the report
and of a frame. -/
theorem patternConfigAndFrames : Obligations.PatternConfigAndFrames := by
  refine ⟨fun s m rest e lh ll gh gl hcan hm => ⟨fun he hl hl' hg hg' => ?_, fun hbad => ?_⟩,
    fun s hp hs ho => ⟨fun hon => ?_, fun hoff => ?_⟩, fun s _ ho => execPatternFrameStart_closed ho,
    fun g seq length gap pos => ⟨fun hi hoff => ?_, fun hi hon => ?_, fun hf => ⟨fun hlt => ?_, fun heq => ?_,
      fun hgt => ?_⟩, fun hgap => ⟨fun hlt => ?_, fun hge => ?_⟩⟩,
    fun s => ⟨State.patternNewTime_silent, fun c hc => ⟨State.patternNewTime_offers hc, fun e => ?_⟩⟩,
    Pattern.atFrameStart_iff, fun g => ⟨g.report_length, ?_⟩,
    fun s i => ⟨patternByte_first s, patternByte_second s, patternByte_later s⟩⟩
  · rw [execPatternConfig_eq hcan, patternConfigRequest_ok _ hm he ⟨hl, hl'⟩ ⟨hg, hg'⟩, Pattern.configure_byte]
    rfl
  · rw [execPatternConfig_eq hcan, patternConfigRequest_refused _ hm hbad]
  · rw [execPatternFrameStart_taken hp hs ho, Pattern.frameStart_on _ hon]
  · rw [execPatternFrameStart_taken hp hs ho, Pattern.frameStart_off _ hoff]
  · exact (Pattern.newTime_idle hi).trans (if_neg (Bool.eq_false_iff.mp hoff))
  · exact (Pattern.newTime_idle hi).trans (if_pos hon)
  · exact (Pattern.newTime_frame hf).trans (if_pos hlt)
  · exact (Pattern.newTime_frame hf).trans ((if_neg (by omega)).trans (if_pos heq))
  · exact (Pattern.newTime_frame hf).trans ((if_neg (by omega)).trans (if_neg (by omega)))
  · exact (Pattern.newTime_gap hgap).trans (if_pos hlt)
  · exact (Pattern.newTime_gap hgap).trans (if_neg (Nat.not_lt.mpr hge))
  · rw [State.patternNewTime_offers hc, offer_egress, setPattern_egresses]
  · unfold Pattern.report
    cases g.phase with
    | idle => rfl
    | frame seq length gap pos => rfl
    | gap seq length gap pos => rfl

end Sys2Proof.Machine
end

section
/-! The stock of the injection buffer: what each change of the pool leaves of the division of blocks and descriptors
(R124). -/

namespace Sys2Proof.Machine

/-! ### The free stock -/

section
variable (p : Pool)

@[simp] theorem setView_freeBlocks (e : Port) (v : View) : (p.setView e v).freeBlocks = p.freeBlocks := rfl

@[simp] theorem setView_freeDescriptors (e : Port) (v : View) :
    (p.setView e v).freeDescriptors = p.freeDescriptors := rfl

@[simp] theorem setContext_freeBlocks (k : ContextId) (c : Option Context) :
    (p.setContext k c).freeBlocks = p.freeBlocks := rfl

@[simp] theorem setContext_freeDescriptors (k : ContextId) (c : Option Context) :
    (p.setContext k c).freeDescriptors = p.freeDescriptors := rfl

@[simp] theorem enqueue_freeBlocks (e : Port) (f : Frame) : (p.enqueue e f).freeBlocks = p.freeBlocks := rfl

@[simp] theorem enqueue_freeDescriptors (e : Port) (f : Frame) :
    (p.enqueue e f).freeDescriptors = p.freeDescriptors := rfl

@[simp] theorem giveBack_freeBlocks (d n : Nat) : (p.giveBack d n).freeBlocks = p.freeBlocks + n := rfl

@[simp] theorem giveBack_freeDescriptors (d n : Nat) :
    (p.giveBack d n).freeDescriptors = p.freeDescriptors + d := rfl

@[simp] theorem take_freeBlocks (n : Nat) : (p.take n).freeBlocks = p.freeBlocks - blocksFor n := rfl

@[simp] theorem take_freeDescriptors (n : Nat) : (p.take n).freeDescriptors = p.freeDescriptors - 1 := rfl

end

/-! ### What views and contexts hold -/

/-- What the views and the contexts hold of a stock of which a view takes `view` and a context `context`. -/
def Pool.held (view : View → Nat) (context : Option Context → Nat) (p : Pool) : Nat :=
  (p.views.toList.map view).sum + (p.contexts.toList.map context).sum

/-- The blocks of a context: those of its whole frame while it is OPEN (R124). -/
def contextBlocks (c : Option Context) : Nat := (c.map Context.blocks).getD 0

/-- The descriptor of a context while it is OPEN (R124). -/
def contextFrames (c : Option Context) : Nat := if c.isSome then 1 else 0

theorem sum_map_set {α : Type} (f : α → Nat) (xs : List α) (i : Nat) (a : α) (h : i < xs.length) :
    ((xs.set i a).map f).sum + f xs[i] = (xs.map f).sum + f a := by
  induction xs generalizing i with
  | nil => exact absurd h (Nat.not_lt_zero i)
  | cons x xs ih =>
    cases i with
    | zero =>
      simp only [List.set_cons_zero, List.map_cons, List.sum_cons, List.getElem_cons_zero]
      omega
    | succ i =>
      have := ih i (Nat.lt_of_succ_lt_succ h)
      simp only [List.set_cons_succ, List.map_cons, List.sum_cons, List.getElem_cons_succ]
      omega

theorem vector_sum_map_set {α : Type} {n : Nat} (f : α → Nat) (xs : Vector α n) (i : Fin n) (a : α) :
    ((xs.set i a).toList.map f).sum + f xs[i] = (xs.toList.map f).sum + f a := by
  rw [Vector.toList_set]
  exact sum_map_set f xs.toList i a (by simp)

section
variable (view : View → Nat) (context : Option Context → Nat) (p : Pool)

@[simp] theorem giveBack_held (d n : Nat) : (p.giveBack d n).held view context = p.held view context := rfl

@[simp] theorem take_held (n : Nat) : (p.take n).held view context = p.held view context := rfl

theorem Pool.held_setView (e : Port) (v : View) :
    (p.setView e v).held view context + view p.views[e] = p.held view context + view v := by
  have h := vector_sum_map_set view p.views e v
  unfold Pool.held Pool.setView
  dsimp only at h ⊢
  omega

theorem Pool.held_setContext (k : ContextId) (c : Option Context) :
    (p.setContext k c).held view context + context p.contexts[k] = p.held view context + context c := by
  have h := vector_sum_map_set context p.contexts k c
  unfold Pool.held Pool.setContext
  dsimp only at h ⊢
  omega

/-- Of the contexts, those of `e` hold what the others do not (R136). -/
theorem sum_contexts_filter (e : Port) (f : Context → Nat) (hn : context none = 0) (hs : ∀ c, context (some c) = f c)
    (cs : List (Option Context)) :
    ((cs.map fun c => c.filter fun x => decide (x.target ≠ e)).map context).sum
        + ((cs.filterMap fun c => c.filter fun x => decide (x.target = e)).map f).sum
      = (cs.map context).sum := by
  induction cs with
  | nil => rfl
  | cons c cs ih =>
    cases c with
    | none =>
      simp only [List.map_cons, List.sum_cons, List.filterMap_cons, Option.filter_none, hn]
      omega
    | some c =>
      simp only [ne_eq] at ih ⊢
      by_cases ht : c.target = e
      · simp only [List.map_cons, List.sum_cons, List.filterMap_cons, Option.filter_some, ht, not_true,
          decide_true, decide_false, if_true, Bool.false_eq_true, if_false, hn, hs]
        omega
      · simp only [List.map_cons, List.sum_cons, List.filterMap_cons, Option.filter_some, ht, not_false_iff,
          decide_true, decide_false, if_true, Bool.false_eq_true, if_false, hs]
        omega

/-- A discard takes the queue of `e` and the contexts that target it from what is held (R136). -/
theorem Pool.held_discard (e : Port) (frame : Frame → Nat) (f : Context → Nat)
    (hv : ∀ v : View, view v = (v.queue.map frame).sum + view { v with queue := [] })
    (hn : context none = 0) (hs : ∀ c, context (some c) = f c) :
    (p.discard e).held view context
        + ((p.views[e].queue.map frame).sum + ((p.contextsFor e).map f).sum)
      = p.held view context := by
  have hview := p.held_setView view context e { p.views[e] with queue := [] }
  have hcontexts := sum_contexts_filter context e f hn hs p.contexts.toList
  have hqueue := hv p.views[e]
  unfold Pool.held Pool.setView at hview
  unfold Pool.held Pool.discard Pool.setView Pool.contextsFor
  dsimp only at hview ⊢
  rw [Vector.toList_map]
  omega

end

/-! ### The division of the stock (R124) -/

/-- The blocks and the descriptors of the pool are divided without overlap or loss (R124). -/
def Pool.Conserved (p : Pool) : Prop :=
  p.freeBlocks + p.held View.blocks contextBlocks = 128 ∧ p.freeDescriptors + p.held View.frames contextFrames = 32

theorem State.poolConserved_iff (s : State) : s.PoolConserved ↔ s.pool.Conserved := Iff.rfl

theorem Pool.conserved_afterReset : Pool.afterReset.Conserved := reset_poolConserved

section
variable {p : Pool} {e : Port} {k : ContextId}

/-- A view that holds as much as before. -/
theorem Pool.Conserved.setView (h : p.Conserved) {v : View} (hb : v.blocks = p.views[e].blocks)
    (hf : v.frames = p.views[e].frames) : (p.setView e v).Conserved := by
  have blocks := p.held_setView View.blocks contextBlocks e v
  have frames := p.held_setView View.frames contextFrames e v
  obtain ⟨hblocks, hframes⟩ := h
  constructor
  · rw [setView_freeBlocks]
    omega
  · rw [setView_freeDescriptors]
    omega

theorem View.blocks_ended {v : View} {f : SendingFrame} (h : v.sending = some f) :
    v.blocks = v.ended.blocks + f.frame.blocks := by
  unfold View.blocks
  rw [h]
  rfl

theorem View.frames_ended {v : View} {f : SendingFrame} (h : v.sending = some f) :
    v.frames = v.ended.frames + 1 := by
  unfold View.frames
  rw [h]
  rfl

/-- A frame that ends gives its space back (R124, R135, R137). -/
theorem Pool.Conserved.ended (h : p.Conserved) {f : SendingFrame} (hs : p.views[e].sending = some f) :
    ((p.setView e p.views[e].ended).giveBack 1 f.frame.blocks).Conserved := by
  have blocks := p.held_setView View.blocks contextBlocks e p.views[e].ended
  have frames := p.held_setView View.frames contextFrames e p.views[e].ended
  have viewBlocks := View.blocks_ended hs
  have viewFrames := View.frames_ended hs
  obtain ⟨hblocks, hframes⟩ := h
  constructor
  · rw [giveBack_freeBlocks, giveBack_held, setView_freeBlocks]
    omega
  · rw [giveBack_freeDescriptors, giveBack_held, setView_freeDescriptors]
    omega

theorem View.blocks_queue (v : View) : v.blocks = (v.queue.map Frame.blocks).sum + { v with queue := [] }.blocks := by
  simp [View.blocks]

theorem View.frames_queue (v : View) : v.frames = v.queue.length + { v with queue := [] }.frames := by
  simp [View.frames]

theorem View.blocks_append (v : View) (f : Frame) :
    { v with queue := v.queue ++ [f] }.blocks = v.blocks + f.blocks := by
  simp [View.blocks]
  omega

theorem View.frames_append (v : View) (f : Frame) : { v with queue := v.queue ++ [f] }.frames = v.frames + 1 := by
  simp [View.frames]
  omega

theorem sum_map_one {α : Type} (xs : List α) : (xs.map fun _ => 1).sum = xs.length := by
  rw [List.map_const', List.sum_replicate, smul_eq_mul, Nat.mul_one]

/-- The discard gives back what it removes (R136). -/
theorem Pool.Conserved.discard (h : p.Conserved) (e : Port) : (p.discard e).Conserved := by
  have blocks := p.held_discard View.blocks contextBlocks e Frame.blocks Context.blocks View.blocks_queue rfl
    fun _ => rfl
  have frames := p.held_discard View.frames contextFrames e (fun _ => 1) (fun _ => 1)
    (fun v => by rw [sum_map_one]; exact v.frames_queue) rfl fun _ => rfl
  rw [sum_map_one, sum_map_one] at frames
  have freeBlocks : (p.discard e).freeBlocks
    = p.freeBlocks + (p.views[e].queue.map Frame.blocks).sum + ((p.contextsFor e).map Context.blocks).sum := rfl
  have freeDescriptors : (p.discard e).freeDescriptors
    = p.freeDescriptors + p.views[e].queue.length + (p.contextsFor e).length := rfl
  obtain ⟨hblocks, hframes⟩ := h
  constructor
  · omega
  · omega

/-! ### Frames that join a queue, and contexts (R128 to R132) -/

theorem enqueue_blocks (p : Pool) (e : Port) (f : Frame) :
    (p.enqueue e f).held View.blocks contextBlocks = p.held View.blocks contextBlocks + f.blocks := by
  have h := p.held_setView View.blocks contextBlocks e { p.views[e] with queue := p.views[e].queue ++ [f] }
  rw [View.blocks_append] at h
  unfold Pool.enqueue
  omega

theorem enqueue_frames (p : Pool) (e : Port) (f : Frame) :
    (p.enqueue e f).held View.frames contextFrames = p.held View.frames contextFrames + 1 := by
  have h := p.held_setView View.frames contextFrames e { p.views[e] with queue := p.views[e].queue ++ [f] }
  rw [View.frames_append] at h
  unfold Pool.enqueue
  omega

theorem setContext_closes {c : Context} (h : p.contexts[k] = some c) :
    (p.setContext k none).held View.blocks contextBlocks + c.blocks = p.held View.blocks contextBlocks
      ∧ (p.setContext k none).held View.frames contextFrames + 1 = p.held View.frames contextFrames := by
  have blocks := p.held_setContext View.blocks contextBlocks k none
  have frames := p.held_setContext View.frames contextFrames k none
  rw [h] at blocks frames
  exact ⟨blocks, frames⟩

theorem setContext_opens (h : p.contexts[k] = none) (c : Context) :
    (p.setContext k (some c)).held View.blocks contextBlocks = p.held View.blocks contextBlocks + c.blocks
      ∧ (p.setContext k (some c)).held View.frames contextFrames = p.held View.frames contextFrames + 1 := by
  have blocks := p.held_setContext View.blocks contextBlocks k (some c)
  have frames := p.held_setContext View.frames contextFrames k (some c)
  rw [h] at blocks frames
  exact ⟨blocks, frames⟩

/-- A context that is FREE again gives its space back (R131, R132). -/
theorem Pool.Conserved.freeUp (h : p.Conserved) {c : Context} (hc : p.contexts[k] = some c) :
    (p.freeUp k c).Conserved := by
  obtain ⟨blocks, frames⟩ := setContext_closes hc
  obtain ⟨hblocks, hframes⟩ := h
  unfold Pool.freeUp
  constructor
  · rw [giveBack_freeBlocks, giveBack_held, setContext_freeBlocks]
    omega
  · rw [giveBack_freeDescriptors, giveBack_held, setContext_freeDescriptors]
    omega

/-- A frame that joins a queue takes its space from the free stock (R124, R128). -/
theorem Pool.Conserved.take_enqueue (h : p.Conserved) {n : Nat} {f : Frame} (hf : f.bytes.length = n)
    (hd : p.freeDescriptors ≠ 0) (hb : blocksFor n ≤ p.freeBlocks) (e : Port) :
    ((p.take n).enqueue e f).Conserved := by
  have hfb : f.blocks = blocksFor n := congrArg blocksFor hf
  obtain ⟨hblocks, hframes⟩ := h
  constructor
  · rw [enqueue_blocks, enqueue_freeBlocks, take_held, take_freeBlocks]
    omega
  · rw [enqueue_frames, enqueue_freeDescriptors, take_held, take_freeDescriptors]
    omega

/-- A context that opens takes the space of its whole frame from the free stock (R124, R128). -/
theorem Pool.Conserved.take_setContext (h : p.Conserved) {c : Context} (hk : p.contexts[k] = none)
    (hd : p.freeDescriptors ≠ 0) (hb : c.blocks ≤ p.freeBlocks) :
    ((p.take c.total).setContext k (some c)).Conserved := by
  obtain ⟨blocks, frames⟩ := setContext_opens (p := p.take c.total) hk c
  have hcb : blocksFor c.total = c.blocks := rfl
  obtain ⟨hblocks, hframes⟩ := h
  constructor
  · rw [blocks, setContext_freeBlocks, take_held, take_freeBlocks]
    omega
  · rw [frames, setContext_freeDescriptors, take_held, take_freeDescriptors]
    omega

/-- A fragment stored takes nothing more: the space is that of the whole frame (R124, R129). -/
theorem Pool.Conserved.refill (h : p.Conserved) {c d : Context} (hc : p.contexts[k] = some c)
    (ht : d.total = c.total) : (p.setContext k (some d)).Conserved := by
  have blocks := p.held_setContext View.blocks contextBlocks k (some d)
  have frames := p.held_setContext View.frames contextFrames k (some d)
  rw [hc] at blocks frames
  have same : contextBlocks (some d) = contextBlocks (some c) := congrArg blocksFor ht
  have both : contextFrames (some d) = contextFrames (some c) := rfl
  obtain ⟨hblocks, hframes⟩ := h
  constructor
  · rw [setContext_freeBlocks]
    omega
  · rw [setContext_freeDescriptors]
    omega

/-- A frame that is complete takes its context's space to the queue (R130). -/
theorem Pool.Conserved.complete (h : p.Conserved) {c : Context} {f : Frame} (hc : p.contexts[k] = some c)
    (hf : f.bytes.length = c.total) (e : Port) : ((p.setContext k none).enqueue e f).Conserved := by
  obtain ⟨blocks, frames⟩ := setContext_closes hc
  have hfb : f.blocks = c.blocks := congrArg blocksFor hf
  obtain ⟨hblocks, hframes⟩ := h
  constructor
  · rw [enqueue_blocks, enqueue_freeBlocks, setContext_freeBlocks]
    omega
  · rw [enqueue_frames, enqueue_freeDescriptors, setContext_freeDescriptors]
    omega

end

end Sys2Proof.Machine
end

section
/-! What the operations of every block leave of the division of the stock (R124). -/

namespace Sys2Proof.Machine

section
variable {s t : State}

/-! ### Operations that leave the pool alone -/

theorem State.SameMap.poolConserved (h : s.SameMap t) (hs : s.PoolConserved) : t.PoolConserved := by
  rw [State.poolConserved_iff, h.pool]
  exact hs

theorem State.notify_poolConserved (hs : s.PoolConserved) (b : NoticeBody) : (s.notify b).PoolConserved :=
  (s.notify_sameMap b).poolConserved hs

theorem State.arbitrate_poolConserved (hs : s.PoolConserved) : s.arbitrate.PoolConserved :=
  s.arbitrate_sameMap.poolConserved hs

theorem State.settle_poolConserved (hs : s.PoolConserved) (e : Port) (ch : Change) (o : Settlement) :
    (s.settle e ch o).PoolConserved := by
  unfold State.settle State.guardSettled
  dsimp only
  split
  · split
    · exact State.notify_poolConserved hs _
    · exact hs
  · exact hs
  · split
    · exact hs
    · split <;> exact hs

theorem State.tryJoin_poolConserved (hs : s.PoolConserved) (e : Port) : (s.tryJoin e).PoolConserved := by
  unfold State.tryJoin
  dsimp only
  split
  · exact hs
  · split
    · exact State.settle_poolConserved (by exact hs) e _ _
    · exact hs

theorem State.leaveFrame_poolConserved (hs : s.PoolConserved) (e : Port) (ch : Change) :
    (s.leaveFrame e ch).PoolConserved := by
  unfold State.leaveFrame
  dsimp only
  split
  · exact State.settle_poolConserved (by exact hs) e _ _
  · exact State.tryJoin_poolConserved (by exact hs) e

theorem State.cutLeave_poolConserved (hs : s.PoolConserved) (e : Port) (ch : Change) :
    (s.cutLeave e ch).PoolConserved := State.leaveFrame_poolConserved (by exact hs) e ch

theorem State.groupHoldEnds_sameMap (s : State) : s.SameMap s.groupHoldEnds := by
  unfold State.groupHoldEnds
  split
  · exact s.groupTo_sameMap _
  · split
    · exact s.groupTo_sameMap _
    · exact s.groupEnter_sameMap _

theorem State.groupArmed_poolConserved (hs : s.PoolConserved) (r : GroupPlan) : (s.groupArmed r).PoolConserved := by
  unfold State.groupArmed
  dsimp only
  split
  · exact (State.groupEnter_sameMap _ r).poolConserved hs
  all_goals exact hs

theorem State.groupPlanGone_poolConserved (hs : s.PoolConserved) : s.groupPlanGone.PoolConserved := by
  unfold State.groupPlanGone
  dsimp only
  split
  · exact (State.groupTo_sameMap _ _).poolConserved hs
  · exact (State.groupTo_sameMap _ _).poolConserved hs
  all_goals exact hs

theorem State.groupToldGone_poolConserved (hs : s.PoolConserved) (first : Bool) :
    (s.groupToldGone first).PoolConserved := by
  unfold State.groupToldGone
  split
  · exact State.groupPlanGone_poolConserved (by exact hs)
  · exact State.groupPlanGone_poolConserved hs

/-! ### The injection buffer (R134 to R137) -/

theorem State.injectDiscard_poolConserved (hs : s.PoolConserved) (e : Port) : (s.injectDiscard e).PoolConserved := by
  have h : (s.setPool (s.pool.discard e)).PoolConserved := Pool.Conserved.discard hs e
  unfold State.injectDiscard
  dsimp only
  split
  · exact h
  · exact State.notify_poolConserved h _

theorem State.injectCut_poolConserved (hs : s.PoolConserved) (e : Port) : (s.injectCut e).PoolConserved := by
  unfold State.injectCut
  dsimp only
  split
  · exact hs
  · rename_i f hf
    exact State.notify_poolConserved (s := s.setPool _) (Pool.Conserved.ended hs hf) _

theorem State.injectSent_poolConserved (hs : s.PoolConserved) (e : Port) : (s.injectSent e).PoolConserved := by
  unfold State.injectSent
  dsimp only
  split
  · exact hs
  · rename_i f hf
    have h : (s.setPool ((s.pool.setView e s.pool.views[e].ended).giveBack 1 f.frame.blocks)).PoolConserved :=
      Pool.Conserved.ended hs hf
    split
    · exact State.notify_poolConserved h _
    · exact h

/-- How far the frame SENDING has come is no part of its space. -/
theorem State.setSent_poolConserved (hs : s.PoolConserved) {e : Port} {f g : SendingFrame} {v : View}
    (hf : s.pool.views[e].sending = some f) (hv : v.sending = some g) (hg : g.frame = f.frame)
    (hq : v.queue = s.pool.views[e].queue) : (s.setPool (s.pool.setView e v)).PoolConserved := by
  refine Pool.Conserved.setView hs ?_ ?_
  · unfold View.blocks
    rw [hv, hf, hq, Option.map_some, Option.map_some, hg]
  · unfold View.frames
    rw [hv, hf, hq]
    rfl

/-- Gap count and frame start due are no part of a view's space. -/
theorem State.setGap_poolConserved (hs : s.PoolConserved) (e : Port) (gap : Nat) (due : Bool) :
    (s.setPool (s.pool.setView e { s.pool.views[e] with gap := gap, startDue := due })).PoolConserved :=
  Pool.Conserved.setView hs rfl rfl

theorem State.startFrame_poolConserved (hs : s.PoolConserved) {e : Port} (h : s.frameMayStart e = true) :
    (s.startFrame e).PoolConserved := by
  simp only [State.frameMayStart, Bool.and_eq_true, Option.isNone_iff_eq_none] at h
  obtain ⟨⟨⟨-, hnone⟩, -⟩, -⟩ := h
  unfold State.startFrame
  dsimp only
  split
  · exact hs
  · rename_i f rest hq
    refine Pool.Conserved.setView hs ?_ ?_
    · unfold View.blocks
      rw [hnone, hq, List.map_cons, List.sum_cons]
      exact Nat.add_comm _ _
    · unfold View.frames
      rw [hnone, hq, List.length_cons]
      rfl

theorem State.viewNewTime_poolConserved (hs : s.PoolConserved) (e : Port) : (s.viewNewTime e).PoolConserved := by
  unfold State.viewNewTime
  dsimp only
  split
  · split
    · exact State.setGap_poolConserved hs e _ _
    · exact State.setGap_poolConserved hs e _ _
  · rename_i f hf
    split
    · split
      · exact hs
      · exact State.setSent_poolConserved hs hf rfl rfl rfl
    · split
      · exact State.setSent_poolConserved hs hf rfl rfl rfl
      · exact State.setSent_poolConserved hs hf rfl rfl rfl

/-! ### Selectors (R33 to R44) -/

theorem State.putReleased_poolConserved (hs : s.PoolConserved) (e : Port) (g : Egress) :
    (s.putReleased e g).PoolConserved := by
  unfold State.putReleased
  dsimp only
  split
  · rename_i f _ hf _
    split
    · exact State.setSent_poolConserved (s := s.setEgress e g) hs hf rfl rfl rfl
    · exact hs
  · exact hs

theorem State.actOn_poolConserved (hs : s.PoolConserved) (e : Port) (ch : Change) : (s.actOn e ch).PoolConserved := by
  have idle : (s.takeIdle e ch).PoolConserved := by
    unfold State.takeIdle
    dsimp only
    split
    · exact State.settle_poolConserved hs e ch _
    · split
      · split
        · exact State.cutLeave_poolConserved hs e _
        · exact hs
      · exact State.leaveFrame_poolConserved hs e ch
  unfold State.actOn
  split
  · exact idle
  · exact idle
  · unfold State.takeDraining
    dsimp only
    split
    · exact State.settle_poolConserved (State.putReleased_poolConserved hs e _) e _ _
    · split
      · exact State.cutLeave_poolConserved hs e _
      · exact State.putReleased_poolConserved hs e _
  · exact State.leaveFrame_poolConserved hs e ch

theorem Egress.injectionPart_poolConserved {g : Egress} {e : Port} {ch : Change} :
    ∀ f ∈ g.injectionPart e ch, ∀ t : State, t.PoolConserved → (f t).PoolConserved := by
  intro f hf t ht
  rcases Egress.mem_injectionPart hf with rfl | ⟨rfl, -⟩
  · exact State.injectDiscard_poolConserved ht e
  · exact State.injectCut_poolConserved ht e

theorem Egress.selectorPart_poolConserved {g : Egress} {e : Port} {ch : Change} :
    ∀ f ∈ g.selectorPart e ch, ∀ t : State, t.PoolConserved → (f t).PoolConserved := by
  intro f hf t ht
  rcases Egress.mem_selectorPart.mp hf with ⟨old, -, rfl⟩ | rfl
  · exact State.settle_poolConserved ht e old _
  · exact State.actOn_poolConserved ht e ch

theorem State.together_poolConserved (hs : s.PoolConserved) (blocks : List (List (State → State)))
    (hf : ∀ b ∈ blocks, ∀ f ∈ b, ∀ t : State, t.PoolConserved → (f t).PoolConserved) :
    (s.together blocks).PoolConserved :=
  State.together_keeps State.PoolConserved (fun _ _ h => h) s blocks hf hs

theorem State.takeChange_poolConserved (hs : s.PoolConserved) (e : Port) (ch : Change) :
    (s.takeChange e ch).PoolConserved :=
  State.together_poolConserved hs _ fun b hb => by
    rcases List.mem_pair.mp hb with rfl | rfl
    · exact Egress.injectionPart_poolConserved
    · exact Egress.selectorPart_poolConserved

theorem State.endDrain_poolConserved (hs : s.PoolConserved) (e : Port) (c : Character) :
    (s.endDrain e c).PoolConserved := by
  unfold State.endDrain
  dsimp only
  split
  · exact hs
  · rename_i ch _
    split
    · refine State.together_poolConserved (by exact hs) _ fun b hb f hf t ht => ?_
      rcases List.mem_pair.mp hb with rfl | rfl <;> rw [List.mem_singleton.mp hf]
      · exact State.injectSent_poolConserved ht e
      · exact State.leaveFrame_poolConserved ht e ch
    · exact State.leaveFrame_poolConserved (by exact hs) e ch

theorem State.expireDeadline_poolConserved (hs : s.PoolConserved) (e : Port) : (s.expireDeadline e).PoolConserved := by
  unfold State.expireDeadline
  split
  · exact hs
  · dsimp only
    split
    · refine State.together_poolConserved hs _ fun b hb f hf t ht => ?_
      rcases List.mem_pair.mp hb with rfl | rfl <;> rw [List.mem_singleton.mp hf]
      · exact State.injectCut_poolConserved ht e
      · exact State.cutLeave_poolConserved ht e _
    · exact State.cutLeave_poolConserved hs e _

theorem State.sendShut_poolConserved (hs : s.PoolConserved) (e : Port) : (s.sendShut e).PoolConserved := by
  unfold State.sendShut
  split
  · exact State.endDrain_poolConserved hs e .shut
  · exact State.injectSent_poolConserved (by exact hs) e

/-! ### Guards (R53 to R67) -/

theorem State.guardParts_poolConserved (s : State) (e : Port) (m : GuardMove) :
    ∀ b ∈ s.guardParts e m, ∀ f ∈ b, ∀ t : State, t.PoolConserved → (f t).PoolConserved := by
  intro b hb f hf t ht
  rcases s.guardParts_cases e m with hm | ⟨g, hm⟩ | ⟨g, ch, hm⟩ <;> rw [hm] at hb
  · exact absurd hb List.not_mem_nil
  · rw [List.mem_singleton.mp hb] at hf
    rw [List.mem_singleton.mp hf]
    exact ht
  · simp only [List.mem_cons, List.not_mem_nil, or_false] at hb
    rcases hb with rfl | rfl | rfl
    · rcases List.mem_pair.mp hf with rfl | rfl
      · exact ht
      · exact (t.occur_sameMap _).poolConserved ht
    · exact Egress.injectionPart_poolConserved f hf t ht
    · exact Egress.selectorPart_poolConserved f hf t ht

theorem State.guardMoves_poolConserved (hs : s.PoolConserved) (e : Port) (m : GuardMove) :
    (s.guardMoves e m).PoolConserved := State.together_poolConserved hs _ (s.guardParts_poolConserved e m)

theorem State.guardSwitch_poolConserved (hs : s.PoolConserved) (e : Port) (sel : Selection) (automatic : Bool)
    (g : GuardState) : (s.guardSwitch e sel automatic g).PoolConserved := by
  unfold State.guardSwitch State.hostSwitch
  split
  · exact State.guardMoves_poolConserved hs e _
  · split
    · exact State.takeChange_poolConserved (by exact hs) e _
    · exact hs

theorem State.guardCommand_poolConserved (hs : s.PoolConserved) (e : Port) (r : Guard) (f : GuardFields)
    (c : GuardCommand) : (s.guardCommand e r f c).PoolConserved := by
  cases c with
  | lock =>
    unfold State.guardCommand State.guardLock
    dsimp only
    split
    · exact hs
    · split
      · exact State.guardSwitch_poolConserved hs e _ _ _
      · exact hs
  | forceStandby =>
    unfold State.guardCommand State.guardForce
    dsimp only
    split
    · exact hs
    · split
      · exact State.guardSwitch_poolConserved hs e _ _ _
      · exact hs
  | clear =>
    unfold State.guardCommand State.guardClear
    dsimp only
    split
    · exact State.guardMoves_poolConserved hs e _
    · split
      · exact State.guardMoves_poolConserved hs e _
      · exact hs

theorem State.guardInit_poolConserved (hs : s.PoolConserved) (e : Port) : (s.guardInit e).PoolConserved := by
  unfold State.guardInit
  split <;> exact hs

theorem State.holdOffIfZero_poolConserved (hs : s.PoolConserved) (e : Port) : (s.holdOffIfZero e).PoolConserved := by
  unfold State.holdOffIfZero
  split
  · split
    · exact State.guardMoves_poolConserved hs e _
    · exact hs
  · exact hs

theorem State.newGuard_poolConserved (hs : s.PoolConserved) (e : Port) (g : GuardState) :
    (s.newGuard e g).PoolConserved := by
  unfold State.newGuard
  split <;> exact hs

theorem State.connect_poolConserved (hs : s.PoolConserved) (e : Port) (entry : Entry) (d : Nat) (n : Bool)
    (tag : Byte) : (s.connect e entry d n tag).PoolConserved :=
  State.holdOffIfZero_poolConserved (State.takeChange_poolConserved (State.guardInit_poolConserved
    (State.newGuard_poolConserved (by exact hs) e _) e) e _) e

/-! ### Line events and reads (R8, R14) -/

theorem State.putIngress_poolConserved (hs : s.PoolConserved) (p : Port) (g : Ingress) :
    (s.putIngress p g).PoolConserved := by
  show (State.announceLine (s.setPort p g) p s.ports[p].line).PoolConserved
  unfold State.announceLine
  dsimp only
  split
  · exact hs
  · refine State.together_poolConserved (by exact hs) _ fun b hb f hf t ht => ?_
    obtain ⟨pre, hpre, hquiet⟩ := (s.setPort p g).lineParts_split p s.ports[p].line (s.setPort p g).ports[p].line
    rw [hpre] at hb
    rcases List.mem_append.mp hb with hb | hb
    · exact (hquiet b hb f hf t).poolConserved ht
    · obtain ⟨e, -, hb⟩ := List.mem_flatMap.mp hb
      obtain ⟨m, hm⟩ := (s.setPort p g).guardLineParts_move e p s.ports[p].line (s.setPort p g).ports[p].line
      exact State.guardParts_poolConserved _ e m b (hm ▸ hb) f hf t ht

theorem State.readTracker_poolConserved (hs : s.PoolConserved) (p : Port) : (s.readTracker p).PoolConserved := by
  unfold State.readTracker
  dsimp only
  split
  · exact hs
  · exact State.putIngress_poolConserved (by exact hs) p _
  · exact hs

/-! ### Plans (R76 to R91) -/

theorem State.setPlan_poolConserved (hs : s.PoolConserved) (k : SlotId) (p : Option Plan) :
    (s.setPlan k p).PoolConserved := hs

theorem State.firePlan_poolConserved (hs : s.PoolConserved) (k : SlotId) (epoch : Option Half) (byRequest : Bool) :
    (s.firePlan k epoch byRequest).PoolConserved := by
  unfold State.firePlan
  split
  · exact hs
  · split
    · dsimp only
      refine List.foldlRecOn _ _ ?_ fun t ht d _ =>
        State.takeChange_poolConserved (State.newGuard_poolConserved (by exact ht) d.egress _) d.egress _
      split
      · exact State.notify_poolConserved (by exact hs) _
      · exact hs
    · exact hs

theorem State.fireWaiting_poolConserved (hs : s.PoolConserved) (g : Trigger) : (s.fireWaiting g).PoolConserved :=
  State.inSomeOrder_keeps State.PoolConserved s _ _ (fun _ _ h => h)
    (fun k _ _ ht => State.firePlan_poolConserved ht k none false) hs

theorem State.takeGroupFire_poolConserved (hs : s.PoolConserved) : s.takeGroupFire.PoolConserved := by
  unfold State.takeGroupFire
  split
  · exact hs
  · exact State.firePlan_poolConserved hs _ _ _

theorem State.takeMarks_poolConserved (hs : s.PoolConserved) : s.takeMarks.PoolConserved :=
  State.inSomeOrder_keeps State.PoolConserved s _ _ (fun _ _ h => h)
    (fun _ _ _ ht => State.fireWaiting_poolConserved (by exact ht) _) hs

theorem State.letGo_poolConserved (hs : s.PoolConserved) (p : Plan) (first : Bool) :
    (s.letGo p first).PoolConserved := by
  have released : (s.releaseClaims (p.edits.map (·.egress))).PoolConserved :=
    List.foldlRecOn _ _ hs fun _ ht _ _ => ht
  have resumed : ((s.releaseClaims (p.edits.map (·.egress))).resumeGuards (p.edits.map (·.egress))).PoolConserved :=
    State.together_poolConserved released _ fun b hb => by
      obtain ⟨e, -, hb⟩ := List.mem_flatMap.mp hb
      obtain ⟨m, hm⟩ := State.guardResumeParts_move _ e
      exact State.guardParts_poolConserved _ e m b (hm ▸ hb)
  have dropped : (((s.releaseClaims (p.edits.map (·.egress))).resumeGuards
      (p.edits.map (·.egress))).dropStranded p).PoolConserved :=
    State.inSomeOrder_keeps State.PoolConserved _ _ _ (fun _ _ h => h)
      (fun e _ _ ht => State.injectDiscard_poolConserved ht e) resumed
  unfold State.letGo
  dsimp only
  split
  · exact State.groupToldGone_poolConserved dropped first
  · exact dropped

theorem State.expirePlan_poolConserved (hs : s.PoolConserved) (k : SlotId) (p : Plan) (r : ExpiryReason)
    (first : Bool) : (s.expirePlan k p r first).PoolConserved :=
  State.notify_poolConserved (State.letGo_poolConserved (by exact hs) p first) _

theorem State.guardSuspend_poolConserved (hs : s.PoolConserved) (e : Port) : (s.guardSuspend e).PoolConserved := by
  unfold State.guardSuspend
  split
  · exact hs
  · split <;> exact hs

theorem State.armPlan_poolConserved (hs : s.PoolConserved) (k : SlotId) (p : Plan) :
    (s.armPlan k p).PoolConserved := by
  have claimed : (s.takeClaims p).PoolConserved :=
    List.foldlRecOn _ _ hs fun _ ht e _ => State.guardSuspend_poolConserved (by exact ht) e
  have told (t : State) (ht : t.PoolConserved) : (t.tellArmed p).PoolConserved := by
    unfold State.tellArmed
    split
    · exact State.groupArmed_poolConserved ht _
    · exact ht
  have armed := told _ (State.setPlan_poolConserved claimed k (some { p with state := .armed, timer := p.armTimer }))
  unfold State.armPlan
  dsimp only
  split
  · exact State.firePlan_poolConserved armed _ _ _
  · exact armed

theorem State.takeEditSettle_poolConserved (hs : s.PoolConserved) (e : Port) (ev : PlanSettle) :
    (s.takeEditSettle e ev).PoolConserved := by
  have settled (t : State) (ht : t.PoolConserved) (k : SlotId) (q : Plan) : (t.editSettled k q e).PoolConserved :=
    State.holdOffIfZero_poolConserved (State.guardInit_poolConserved (by exact ht) e) e
  have completed (t : State) (ht : t.PoolConserved) (k : SlotId) (q : Plan) : (t.completePlan k q).PoolConserved := by
    unfold State.completePlan
    dsimp only
    refine State.notify_poolConserved ?_ _
    split <;> exact ht
  have cleared : (s.setEgress e { s.egresses[e] with planSettle := none }).PoolConserved := hs
  unfold State.takeEditSettle
  dsimp only
  split
  · exact cleared
  · split
    · split
      · exact completed _ (settled _ cleared _ _) _ _
      · exact settled _ cleared _ _
    · exact cleared

end

end Sys2Proof.Machine
end

section
/-! Every command, and a character time, keeps the stock of the injection buffer divided without overlap or loss
(R124). -/

namespace Sys2Proof.Machine

section
variable {s t : State}

/-! ### The frame of one event -/

theorem State.event_poolConserved (can : Bool) (effect : State → State) (hs : s.PoolConserved)
    (h : can = true → (effect s).PoolConserved) : (s.event can effect).PoolConserved := by
  unfold State.event
  split
  · rename_i hc
    exact State.arbitrate_poolConserved (h (Bool.and_eq_true _ _ ▸ hc).2)
  · exact hs

theorem State.execute_poolConserved (accepts : Byte → Bool) (body : Message → State → Answer × State)
    (hs : s.PoolConserved) (h : ∀ (m : Message) (t : State), t.PoolConserved → (body m t).2.PoolConserved) :
    (s.execute accepts body).PoolConserved := by
  unfold State.execute
  split
  · exact hs
  · exact State.event_poolConserved _ _ hs fun _ => h _ (s.taken _) hs

/-- A request that leaves the pool. -/
theorem State.execute_samePool (accepts : Byte → Bool) (body : Message → State → Answer × State)
    (h : ∀ (m : Message) (t : State), (body m t).2.pool = t.pool) (hs : s.PoolConserved) :
    (s.execute accepts body).PoolConserved :=
  State.execute_poolConserved accepts body hs fun m t ht => by
    rw [State.poolConserved_iff, h m t]
    exact ht

/-! ### The requests of the injection buffer (R128 to R131) -/

theorem Pool.freeContext_some {p : Pool} {k : ContextId} (h : p.freeContext = some k) : p.contexts[k] = none :=
  Option.isNone_iff_eq_none.mp (List.find?_some (p := fun j : ContextId => p.contexts[j].isNone) h)

theorem injectStartRequest_poolConserved (m : Message) (t : State) (ht : t.PoolConserved) :
    (injectStartRequest m t).2.PoolConserved := by
  have started (e : Port) (n : Nat) (notify : Bool) (fragment : List Byte) :
      (t.injectStart e n notify fragment).2.PoolConserved := by
    unfold State.injectStart
    dsimp only
    split
    · exact ht
    · split
      · exact ht
      · rename_i hroom
        simp only [not_or, Nat.not_lt] at hroom
        obtain ⟨hd, hb⟩ := hroom
        split
        · rename_i hlen
          exact Pool.Conserved.take_enqueue ht (f := ⟨_, _, _⟩) hlen hd hb e
        · split
          · exact ht
          · rename_i k hk
            exact Pool.Conserved.take_setContext ht (c := ⟨_, _, n, _, _, _, _⟩) (Pool.freeContext_some hk) hd hb
  unfold injectStartRequest
  split
  · split
    · dsimp only
      split
      · split
        · exact ht
        · exact started _ _ _ _
      · exact ht
    · exact ht
  · exact ht

theorem injectContRequest_poolConserved (m : Message) (t : State) (ht : t.PoolConserved) :
    (injectContRequest m t).2.PoolConserved := by
  have stored (k : ContextId) (c : Context) (hc : t.pool.contexts[k] = some c) (fragment : List Byte) :
      (t.injectStore k c fragment).2.PoolConserved := by
    unfold State.injectStore
    dsimp only
    split
    · rename_i hlen
      exact Pool.Conserved.complete ht (f := ⟨_, _, _⟩) hc hlen c.target
    · exact Pool.Conserved.refill ht hc rfl
  unfold injectContRequest
  split
  · split
    · split
      · exact ht
      · split
        · exact ht
        · rename_i c hc
          split
          · exact ht
          · exact stored _ c hc _
    · exact ht
  · exact ht

theorem injectAbortRequest_poolConserved (m : Message) (t : State) (ht : t.PoolConserved) :
    (injectAbortRequest m t).2.PoolConserved := by
  unfold injectAbortRequest
  split
  · split
    · exact ht
    · split
      · exact ht
      · rename_i c hc
        exact Pool.Conserved.freeUp ht hc
  · exact ht

/-! ### Requests of the connection map, the guards and the plans -/

theorem connectRequest_poolConserved (m : Message) (t : State) (ht : t.PoolConserved) :
    (connectRequest m t).2.PoolConserved := by
  unfold connectRequest
  split
  · split
    · split
      · exact ht
      · exact State.connect_poolConserved ht _ _ _ _ _
    · exact ht
  · exact ht

theorem guardControlRequest_poolConserved (m : Message) (t : State) (ht : t.PoolConserved) :
    (guardControlRequest m t).2.PoolConserved := by
  unfold guardControlRequest
  split
  · split
    · split
      · split
        · exact ht
        · exact State.guardCommand_poolConserved ht _ _ _ _
      · exact ht
    · exact ht
  · exact ht

theorem planRequest_poolConserved (act : SlotId → Plan → State → Answer × State)
    (h : ∀ (k : SlotId) (p : Plan) (t : State), t.PoolConserved → (act k p t).2.PoolConserved) (m : Message)
    (t : State) (ht : t.PoolConserved) : (planRequest act m t).2.PoolConserved := by
  unfold planRequest
  split
  · split
    · exact ht
    · split
      · exact ht
      · exact h _ _ t ht
  · exact ht

theorem armRequest_poolConserved (k : SlotId) (p : Plan) (t : State) (ht : t.PoolConserved) :
    (armRequest k p t).2.PoolConserved := by
  unfold armRequest
  split
  · exact ht
  · exact State.armPlan_poolConserved ht k p

theorem fireRequest_poolConserved (k : SlotId) (p : Plan) (t : State) (ht : t.PoolConserved) :
    (fireRequest k p t).2.PoolConserved := by
  unfold fireRequest
  split
  · exact ht
  · split
    · exact ht
    · exact State.firePlan_poolConserved ht _ _ _

theorem cancelRequest_poolConserved (first : Bool) (k : SlotId) (p : Plan) (t : State) (ht : t.PoolConserved) :
    (cancelRequest first k p t).2.PoolConserved := by
  unfold cancelRequest
  dsimp only
  split
  · exact ht
  · exact State.letGo_poolConserved (by exact ht) p first
  all_goals exact ht

theorem releaseRequest_poolConserved (k : SlotId) (p : Plan) (t : State) (ht : t.PoolConserved) :
    (releaseRequest k p t).2.PoolConserved := by
  unfold releaseRequest
  split <;> exact ht

/-! ### Requests that leave the pool -/

theorem planLoadRequest_pool (m : Message) (t : State) : (planLoadRequest m t).2.pool = t.pool := by
  unfold planLoadRequest State.loadPlan
  repeat' split
  all_goals rfl

theorem planReadRequest_pool (m : Message) (t : State) : (planReadRequest m t).2.pool = t.pool := by
  unfold planReadRequest
  repeat' split
  all_goals rfl

theorem groupConfigRequest_pool (m : Message) (t : State) : (groupConfigRequest m t).2.pool = t.pool := by
  unfold groupConfigRequest
  split
  · split
    · rfl
    · split
      · rfl
      · split
        · rfl
        · exact (t.groupTo_sameMap _).pool
  · rfl

theorem restartRequest_pool (m : Message) (t : State) : (restartRequest m t).2.pool = t.pool := by
  unfold restartRequest
  split <;> rfl

theorem setFramingRequest_pool (m : Message) (t : State) : (setFramingRequest m t).2.pool = t.pool := by
  unfold setFramingRequest
  dsimp only
  repeat' split
  all_goals rfl

theorem setPortRequest_pool (m : Message) (t : State) : (setPortRequest m t).2.pool = t.pool := by
  unfold setPortRequest
  repeat' split
  all_goals rfl

theorem portStatusRequest_pool (m : Message) (t : State) : (portStatusRequest m t).2.pool = t.pool := by
  unfold portStatusRequest
  dsimp only
  repeat' split
  all_goals rfl

theorem patternConfigRequest_pool (m : Message) (t : State) : (patternConfigRequest m t).2.pool = t.pool := by
  unfold patternConfigRequest
  dsimp only
  repeat' split
  all_goals rfl

theorem conditionsClearRequest_pool (m : Message) (t : State) : (conditionsClearRequest m t).2.pool = t.pool := by
  unfold conditionsClearRequest State.clearConds
  repeat' split
  all_goals rfl

theorem subscribeRequest_pool (m : Message) (t : State) : (subscribeRequest m t).2.pool = t.pool := by
  unfold subscribeRequest State.subscribeTo
  repeat' split
  all_goals rfl

/-! ### Events of the ingresses, the timers and the sense inputs -/

/-- A reset makes the whole stock free (R126). -/
theorem State.poolConserved_of_reset (h : t.pool = Pool.afterReset) : t.PoolConserved := by
  rw [State.poolConserved_iff, h]
  exact Pool.conserved_afterReset

theorem State.endReset_poolConserved (s : State) (cause : ResetCause) (straps : Straps) :
    (s.helloQueued cause straps).arbitrate.PoolConserved :=
  State.arbitrate_poolConserved (State.poolConserved_of_reset rfl)

theorem execHardwareResetEnd_poolConserved (i : Inputs) (hs : s.PoolConserved)
    (h : exec (.hardwareResetEnd i) s = .next t) : t.PoolConserved := by
  cases hp : s.phase with
  | hardwareReset cause =>
    rw [execHardwareResetEnd_ends i hp] at h
    cases h
    exact State.endReset_poolConserved _ _ _
  | run | restart =>
    replace h : execHardwareResetEnd i s = .next t := h
    unfold execHardwareResetEnd at h
    rw [hp] at h
    cases h
    exact hs

theorem execRestartEnd_poolConserved (straps : Straps) (hs : s.PoolConserved)
    (h : exec (.restartEnd straps) s = .next t) : t.PoolConserved := by
  cases hp : s.phase with
  | restart left =>
    rw [execRestartEnd_ends straps hp] at h
    cases h
    exact State.endReset_poolConserved _ _ _
  | run | hardwareReset =>
    replace h : execRestartEnd straps s = .next t := h
    unfold execRestartEnd at h
    rw [hp] at h
    cases h
    exact hs

theorem execSendComplete_poolConserved (hs : s.PoolConserved) (h : execSendComplete s = .next t) :
    t.PoolConserved := by
  unfold execSendComplete at h
  split at h
  · split at h <;> cases h
    · exact State.poolConserved_of_reset rfl
    · exact State.arbitrate_poolConserved (s := s.setLink _) hs
  · cases h
    exact hs

theorem execSdDeassert_poolConserved (p : Port) (hs : s.PoolConserved) (h : execSdDeassert p s = .next t) :
    t.PoolConserved := by
  unfold execSdDeassert at h
  split at h <;> cases h
  · exact State.event_poolConserved _ _ hs fun _ => hs
  all_goals exact hs

theorem execSdAssert_poolConserved (p : Port) (hs : s.PoolConserved) (h : execSdAssert p s = .next t) :
    t.PoolConserved := by
  unfold execSdAssert at h
  split at h <;> cases h
  · exact State.event_poolConserved _ _ hs fun _ => State.putIngress_poolConserved hs p _
  all_goals exact hs

theorem execGrdyLevelChange_poolConserved (high : Bool) (hs : s.PoolConserved)
    (h : execGrdyLevelChange high s = .next t) : t.PoolConserved := by
  unfold execGrdyLevelChange at h
  split at h <;> cases h
  · exact State.event_poolConserved _ _ hs fun _ => hs
  all_goals exact hs

theorem execSenseRise_poolConserved (n : SenseId) (hs : s.PoolConserved) (h : execSenseRise n s = .next t) :
    t.PoolConserved := by
  unfold execSenseRise at h
  split at h <;> cases h
  · exact State.event_poolConserved _ _ hs fun _ => hs
  all_goals exact hs

theorem execSenseFall_poolConserved (n : SenseId) (hs : s.PoolConserved) (h : execSenseFall n s = .next t) :
    t.PoolConserved := by
  unfold execSenseFall at h
  split at h <;> cases h
  · exact State.event_poolConserved _ _ hs fun _ => hs
  all_goals exact hs

theorem execTrackerRead_poolConserved (p : Port) (hs : s.PoolConserved) (h : execTrackerRead p s = .next t) :
    t.PoolConserved := by
  cases h
  have before : (s.beforeRead p).PoolConserved := by
    unfold State.beforeRead
    split
    · exact hs
    · exact State.takeMarks_poolConserved hs
  have after (t : State) (ht : t.PoolConserved) : t.afterRead.PoolConserved := by
    unfold State.afterRead
    split
    · exact State.takeMarks_poolConserved ht
    · exact ht
  exact State.event_poolConserved _ _ hs fun _ => after _ (State.readTracker_poolConserved before p)

theorem execNoiseWindowEnd_poolConserved (p : Port) (hs : s.PoolConserved) (h : execNoiseWindowEnd p s = .next t) :
    t.PoolConserved := by
  cases h
  refine State.event_poolConserved _ _ hs fun _ => ?_
  split
  · exact hs
  · exact State.putIngress_poolConserved hs p _

theorem execDrainEnd_poolConserved (e : Port) (hs : s.PoolConserved) (h : execDrainEnd e s = .next t) :
    t.PoolConserved := by
  cases h
  refine State.event_poolConserved _ _ hs fun _ => ?_
  split
  · exact hs
  · exact State.endDrain_poolConserved hs e _

theorem execEditSettle_poolConserved (e : Port) (hs : s.PoolConserved) (h : execEditSettle e s = .next t) :
    t.PoolConserved := by
  cases h
  refine State.event_poolConserved _ _ hs fun _ => ?_
  split
  · exact hs
  · exact State.takeEditSettle_poolConserved hs e _

theorem execArmExpiry_poolConserved (k : SlotId) (hs : s.PoolConserved) (h : execArmExpiry k s = .next t) :
    t.PoolConserved := by
  cases h
  refine State.event_poolConserved _ _ hs fun _ => ?_
  split
  · exact hs
  · exact State.expirePlan_poolConserved hs k _ _ _

theorem execGroupWaitExpiry_poolConserved (k : SlotId) (first : Bool) (hs : s.PoolConserved)
    (h : execGroupWaitExpiry k first s = .next t) : t.PoolConserved := by
  cases h
  refine State.event_poolConserved _ _ hs fun _ => ?_
  split
  · exact hs
  · exact State.expirePlan_poolConserved hs k _ _ _

theorem execHoldOffExpiry_poolConserved (e : Port) (hs : s.PoolConserved) (h : execHoldOffExpiry e s = .next t) :
    t.PoolConserved := by
  cases h
  refine State.event_poolConserved _ _ hs fun _ => ?_
  split
  · exact hs
  · exact State.guardMoves_poolConserved hs e _

theorem execAssemblyTimeout_poolConserved (k : ContextId) (hs : s.PoolConserved)
    (h : execAssemblyTimeout k s = .next t) : t.PoolConserved := by
  cases h
  refine State.event_poolConserved _ _ hs fun _ => ?_
  split
  · exact hs
  · rename_i c hc
    exact State.notify_poolConserved (s := s.setPool _) (Pool.Conserved.freeUp hs hc) _

theorem execSenseQualified_poolConserved (n : SenseId) (hs : s.PoolConserved) (h : execSenseQualified n s = .next t) :
    t.PoolConserved := by
  cases h
  refine State.event_poolConserved _ _ hs fun _ => ?_
  have latched := (State.occur_sameMap (s.setSense n { s.senses[n] with qualifier := .high })
    (senseCond n)).poolConserved hs
  unfold State.qualifySense
  dsimp only
  split
  · exact latched
  · exact State.fireWaiting_poolConserved latched _

/-! ### Every command -/

/-- Every command keeps the stock divided: those of the injection buffer and of the selectors by what each does with
frames and contexts, and the others by leaving the pool. -/
theorem exec_poolConserved (c : Instr) (s t : State) (hs : s.PoolConserved) (h : exec c s = .next t) :
    t.PoolConserved := by
  cases c
  case injectStart => cases h; exact State.execute_poolConserved _ _ hs injectStartRequest_poolConserved
  case injectCont => cases h; exact State.execute_poolConserved _ _ hs injectContRequest_poolConserved
  case injectAbort => cases h; exact State.execute_poolConserved _ _ hs injectAbortRequest_poolConserved
  case poolStatus =>
    cases h
    exact State.execute_samePool _ _ (fun m t => by unfold poolStatusRequest; split <;> rfl) hs
  case injectFrameStart e =>
    cases h
    exact State.event_poolConserved _ _ hs fun hc => State.startFrame_poolConserved hs hc
  case injectFrameSent e => cases h; exact State.event_poolConserved _ _ hs fun _ => State.sendShut_poolConserved hs e
  case assemblyTimeout k => exact execAssemblyTimeout_poolConserved k hs h
  case connect => cases h; exact State.execute_poolConserved _ _ hs connectRequest_poolConserved
  case guardControl => cases h; exact State.execute_poolConserved _ _ hs guardControlRequest_poolConserved
  case planArm =>
    cases h
    exact State.execute_poolConserved _ _ hs (planRequest_poolConserved _ armRequest_poolConserved)
  case planFire =>
    cases h
    exact State.execute_poolConserved _ _ hs (planRequest_poolConserved _ fireRequest_poolConserved)
  case planCancel first =>
    cases h
    exact State.execute_poolConserved _ _ hs (planRequest_poolConserved _ (cancelRequest_poolConserved first))
  case planRelease =>
    cases h
    exact State.execute_poolConserved _ _ hs (planRequest_poolConserved _ releaseRequest_poolConserved)
  case drainEnd e => exact execDrainEnd_poolConserved e hs h
  case deadlineExpiry e =>
    cases h
    exact State.event_poolConserved _ _ hs fun _ => State.expireDeadline_poolConserved hs e
  case joinComplete e => cases h; exact State.event_poolConserved _ _ hs fun _ => State.tryJoin_poolConserved hs e
  case editSettle e => exact execEditSettle_poolConserved e hs h
  case armExpiry k => exact execArmExpiry_poolConserved k hs h
  case groupWaitExpiry k first => exact execGroupWaitExpiry_poolConserved k first hs h
  case holdOffExpiry e => exact execHoldOffExpiry_poolConserved e hs h
  case waitToRestoreExpiry e =>
    cases h
    exact State.event_poolConserved _ _ hs fun _ => State.guardSwitch_poolConserved hs e _ _ _
  case qualificationComplete =>
    cases h
    exact State.event_poolConserved _ _ hs fun _ => State.takeGroupFire_poolConserved (s := s.setGroup _) hs
  case senseQualified n => exact execSenseQualified_poolConserved n hs h
  case trackerRead p => exact execTrackerRead_poolConserved p hs h
  case noiseWindowEnd p => exact execNoiseWindowEnd_poolConserved p hs h
  case sdDeassert p => exact execSdDeassert_poolConserved p hs h
  case sdAssert p => exact execSdAssert_poolConserved p hs h
  case sdLossTimerExpiry p =>
    cases h
    exact State.event_poolConserved _ _ hs fun _ => State.putIngress_poolConserved hs p _
  case characterReceived p c re =>
    cases h
    exact State.event_poolConserved _ _ hs fun _ => State.putIngress_poolConserved hs p _
  case trafficTimerExpiry p =>
    cases h
    exact State.event_poolConserved _ _ hs fun _ => State.putIngress_poolConserved hs p _
  case hardwareReset => cases h; exact State.poolConserved_of_reset rfl
  case hardwareResetEnd i => exact execHardwareResetEnd_poolConserved i hs h
  case restartEnd straps => exact execRestartEnd_poolConserved straps hs h
  case sendComplete => exact execSendComplete_poolConserved hs h
  case requestArrival =>
    cases h
    exact State.event_poolConserved _ _ hs fun _ => (s.messageReceived_sameMap _ _ _).poolConserved hs
  case checkFailure =>
    cases h
    exact State.event_poolConserved _ _ hs fun _ => s.messageDiscarded_sameMap.poolConserved hs
  case lenOutOfRange => cases h; exact State.event_poolConserved _ _ hs fun _ => hs
  case gapTimerExpiry =>
    cases h
    exact State.event_poolConserved _ _ hs fun _ => (State.occur_sameMap (s.setLink _) _).poolConserved hs
  case byteReceived =>
    cases h
    exact State.event_poolConserved _ _ hs fun _ => (s.takeByte_sameMap _ _).poolConserved hs
  case unknownRequestKind => cases h; exact State.execute_samePool _ _ (fun _ _ => rfl) hs
  case echo => cases h; exact State.execute_samePool _ _ (fun m t => by unfold echoRequest; split <;> rfl) hs
  case status => cases h; exact State.execute_samePool _ _ (fun m t => by unfold statusRequest; split <;> rfl) hs
  case restart => cases h; exact State.execute_samePool _ _ restartRequest_pool hs
  case setFraming => cases h; exact State.execute_samePool _ _ setFramingRequest_pool hs
  case setPort => cases h; exact State.execute_samePool _ _ setPortRequest_pool hs
  case portStatus => cases h; exact State.execute_samePool _ _ portStatusRequest_pool hs
  case mapRead => cases h; exact State.execute_samePool _ _ (fun m t => by unfold mapReadRequest; split <;> rfl) hs
  case planLoad => cases h; exact State.execute_samePool _ _ planLoadRequest_pool hs
  case planRead => cases h; exact State.execute_samePool _ _ planReadRequest_pool hs
  case groupConfig => cases h; exact State.execute_samePool _ _ groupConfigRequest_pool hs
  case groupStatus =>
    cases h
    exact State.execute_samePool _ _ (fun m t => by unfold groupStatusRequest; split <;> rfl) hs
  case patternConfig => cases h; exact State.execute_samePool _ _ patternConfigRequest_pool hs
  case conditionsRead =>
    cases h
    exact State.execute_samePool _ _ (fun m t => by unfold conditionsReadRequest; split <;> rfl) hs
  case conditionsClear => cases h; exact State.execute_samePool _ _ conditionsClearRequest_pool hs
  case subscribe => cases h; exact State.execute_samePool _ _ subscribeRequest_pool hs
  case grdyLevelChange high => exact execGrdyLevelChange_poolConserved high hs h
  case holdExpiry =>
    cases h
    exact State.event_poolConserved _ _ hs fun _ => s.groupHoldEnds_sameMap.poolConserved hs
  case faultTimerExpiry =>
    cases h
    exact State.event_poolConserved _ _ hs fun _ => (State.occur_sameMap (s.setGroup _) _).poolConserved hs
  case patternFrameStart => cases h; exact State.event_poolConserved _ _ hs fun _ => hs
  case senseRise n => exact execSenseRise_poolConserved n hs h
  case senseFall n => exact execSenseFall_poolConserved n hs h

/-! ### One character time (log entry 5) -/

/-- The assembly timers run on, and no context's space with them. -/
theorem State.clocksNewTime_poolConserved (hs : s.PoolConserved) : s.clocksNewTime.PoolConserved := by
  have same (context : Option Context → Nat)
      (h : ∀ c : Option Context, context (c.map fun x => { x with timer := x.timer - 1 }) = context c)
      (view : View → Nat) : s.clocksNewTime.pool.held view context = s.pool.held view context := by
    have hc : s.clocksNewTime.pool.contexts.toList
        = s.pool.contexts.toList.map fun c => c.map fun x : Context => { x with timer := x.timer - 1 } :=
      Vector.toList_map
    unfold Pool.held
    rw [hc, List.map_map]
    exact congrArg (fun f => (s.pool.views.toList.map view).sum + (s.pool.contexts.toList.map f).sum) (funext h)
  have blocks := same contextBlocks (fun c => by cases c <;> rfl) View.blocks
  have frames := same contextFrames (fun c => by cases c <;> rfl) View.frames
  obtain ⟨hblocks, hframes⟩ := hs
  exact ⟨(congrArg (s.pool.freeBlocks + ·) blocks).trans hblocks,
    (congrArg (s.pool.freeDescriptors + ·) frames).trans hframes⟩

theorem State.newTime_poolConserved (hs : s.PoolConserved) : s.newTime.PoolConserved := by
  have offered : s.clocksNewTime.patternNewTime.PoolConserved := by
    have h := State.clocksNewTime_poolConserved hs
    unfold State.patternNewTime
    dsimp only
    split
    · exact h
    · exact h
  cases hp : s.phase with
  | run =>
    rw [State.newTime_run hp]
    exact List.foldlRecOn _ _ offered fun _ ht e _ => State.viewNewTime_poolConserved ht e
  | restart left =>
    rw [State.newTime_restart hp]
    exact hs
  | hardwareReset cause =>
    rw [State.newTime_hardwareReset hp]
    exact hs

end

/-- Settles O56: every command, and a character time with nothing due, keeps the stock divided. -/
theorem everyStepConservesThePool : Obligations.EveryStepConservesThePool :=
  keptByStep_of_exec _ (fun _ _ h => h) (fun _ _ h => h) exec_poolConserved
    fun _ hs _ => State.newTime_poolConserved hs

end Sys2Proof.Machine
end

section
/-! INJECT_START: the plans and frame ids it reads, and its answers (R124, R125, R127, R128). -/

namespace Sys2Proof.Machine

/-! ### The frame id that comes next (R125) -/

theorem Pool.mem_liveIds (p : Pool) (x : Half) :
    x ∈ p.liveIds ↔ (∃ e : Port, (∃ f ∈ p.views[e].queue, f.id = x)
        ∨ ∃ f, p.views[e].sending = some f ∧ f.frame.id = x)
      ∨ ∃ (k : ContextId) (c : Context), p.contexts[k] = some c ∧ c.id = x := by
  have mem_views (v : View) : v ∈ p.views.toList ↔ ∃ e : Port, p.views[e] = v := by
    rw [Vector.mem_toList_iff, Vector.mem_iff_getElem]
    exact ⟨fun ⟨i, hi, h⟩ => ⟨⟨i, hi⟩, h⟩, fun ⟨e, h⟩ => ⟨e.val, e.isLt, h⟩⟩
  have mem_contexts (c : Option Context) : c ∈ p.contexts.toList ↔ ∃ k : ContextId, p.contexts[k] = c := by
    rw [Vector.mem_toList_iff, Vector.mem_iff_getElem]
    exact ⟨fun ⟨i, hi, h⟩ => ⟨⟨i, hi⟩, h⟩, fun ⟨k, h⟩ => ⟨k.val, k.isLt, h⟩⟩
  unfold Pool.liveIds
  rw [List.mem_append, List.mem_flatMap, List.mem_flatMap]
  refine or_congr ?_ ?_
  · constructor
    · rintro ⟨v, hv, hx⟩
      obtain ⟨e, rfl⟩ := (mem_views v).mp hv
      simp only [List.mem_append, List.mem_map, Option.mem_toList, Option.map_eq_some_iff] at hx
      exact ⟨e, hx⟩
    · rintro ⟨e, hx⟩
      refine ⟨p.views[e], (mem_views _).mpr ⟨e, rfl⟩, ?_⟩
      simpa only [List.mem_append, List.mem_map, Option.mem_toList, Option.map_eq_some_iff] using hx
  · constructor
    · rintro ⟨c, hc, hx⟩
      obtain ⟨k, rfl⟩ := (mem_contexts c).mp hc
      simp only [Option.mem_toList, Option.map_eq_some_iff] at hx
      exact ⟨k, hx⟩
    · rintro ⟨k, hx⟩
      refine ⟨p.contexts[k], (mem_contexts _).mpr ⟨k, rfl⟩, ?_⟩
      simpa only [Option.mem_toList, Option.map_eq_some_iff] using hx

/-- The search passes over held ids only, and stops at one that is free or when it has looked at all it may. -/
theorem firstFreeId_passes (held : List Half) (fuel : Nat) (id : Half) :
    ∃ n ≤ fuel, firstFreeId held fuel id = id + BitVec.ofNat 16 n
      ∧ (n < fuel → id + BitVec.ofNat 16 n ∉ held) ∧ ∀ i < n, id + BitVec.ofNat 16 i ∈ held := by
  induction fuel generalizing id with
  | zero => exact ⟨0, Nat.le_refl 0, (BitVec.add_zero id).symm, fun h => absurd h (Nat.lt_irrefl 0), nofun⟩
  | succ fuel ih =>
    have step (i : Nat) : id + BitVec.ofNat 16 (i + 1) = id + 1 + BitVec.ofNat 16 i := by
      rw [Nat.add_comm i 1, BitVec.ofNat_add, ← BitVec.add_assoc]
      rfl
    unfold firstFreeId
    by_cases hid : id ∈ held
    · rw [if_pos (List.contains_iff_mem.mpr hid)]
      obtain ⟨n, hn, heq, hfree, hheld⟩ := ih (id + 1)
      refine ⟨n + 1, Nat.succ_le_succ hn, by rw [step, heq], fun h => ?_, fun i hi => ?_⟩
      · rw [step]
        exact hfree (Nat.lt_of_succ_lt_succ h)
      · cases i with
        | zero => exact (BitVec.add_zero id).symm ▸ hid
        | succ i =>
          rw [step]
          exact hheld i (Nat.lt_of_succ_lt_succ hi)
    · rw [if_neg (List.contains_iff_mem.not.mpr hid)]
      exact ⟨0, Nat.zero_le _, (BitVec.add_zero id).symm, fun _ => (BitVec.add_zero id).symm ▸ hid, nofun⟩

/-- Ids that follow one another differ, so that no more of them are held than frames hold ids. -/
theorem following_ids_length (held : List Half) (id : Half) (n : Nat) (hn : n ≤ 2 ^ 16)
    (h : ∀ i < n, id + BitVec.ofNat 16 i ∈ held) : n ≤ held.length := by
  have nodup : ((List.range n).map fun i => id + BitVec.ofNat 16 i).Nodup := by
    refine List.Nodup.map_on (fun i hi j hj hij => ?_) List.nodup_range
    have hi := List.mem_range.mp hi
    have hj := List.mem_range.mp hj
    have := congrArg BitVec.toNat ((BitVec.add_right_inj id).mp hij)
    simp only [BitVec.toNat_ofNat] at this
    omega
  have sub : ((List.range n).map fun i => id + BitVec.ofNat 16 i) ⊆ held := by
    intro x hx
    obtain ⟨i, hi, rfl⟩ := List.mem_map.mp hx
    exact h i (List.mem_range.mp hi)
  have := (nodup.subperm sub).length_le
  rwa [List.length_map, List.length_range] at this

section
variable (p : Pool) (id : Half)

theorem Pool.idAfter_free (h : id + 1 ∉ p.liveIds) : p.idAfter id = id + 1 :=
  if_neg (List.contains_iff_mem.not.mpr h)

/-- With no more ids held than there are descriptors, the next id is the first that is free (R125). -/
theorem Pool.idAfter_first (h : p.liveIds.length ≤ 32) :
    ∃ n : Nat, n ≤ 32 ∧ p.idAfter id = id + 1 + BitVec.ofNat 16 n
      ∧ p.idAfter id ∉ p.liveIds ∧ ∀ i : Nat, i < n → id + 1 + BitVec.ofNat 16 i ∈ p.liveIds := by
  obtain ⟨n, hn, heq, hfree, hheld⟩ := firstFreeId_passes p.liveIds 32 (id + 1)
  have heq : p.idAfter id = id + 1 + BitVec.ofNat 16 n := heq
  refine ⟨n, hn, heq, fun hmem => ?_, hheld⟩
  rw [heq] at hmem
  rcases Nat.lt_or_eq_of_le hn with hlt | rfl
  · exact hfree hlt hmem
  · have := following_ids_length p.liveIds (id + 1) 33 (by decide) fun i hi =>
      (Nat.lt_or_eq_of_le (Nat.le_of_lt_succ hi)).elim (hheld i) fun h => h ▸ hmem
    omega

end

/-! ### The plan with an id, and eligibility (R70, R127) -/

/-- The first slot in ascending order that gives something. -/
theorem findSome_allSlots {α : Type} {f : SlotId → Option α} {a : α} (h : allSlots.findSome? f = some a) :
    ∃ k, f k = some a ∧ ∀ j < k, f j = none := by
  obtain ⟨before, k, after, hsplit, hk, hbefore⟩ := List.findSome?_eq_some_iff.mp h
  refine ⟨k, hk, fun j hj => hbefore j ?_⟩
  have sorted : (before ++ k :: after).Pairwise (· < ·) := hsplit ▸ List.pairwise_lt_finRange 8
  have hmem : j ∈ before ++ k :: after := hsplit ▸ List.mem_finRange j
  rcases List.mem_append.mp hmem with hm | hm
  · exact hm
  · rcases List.mem_cons.mp hm with rfl | hm
    · exact absurd hj (lt_irrefl j)
    · have := (List.pairwise_cons.mp (List.pairwise_append.mp sorted).2.1).1 j hm
      exact absurd hj (lt_asymm this)

section
variable (s : State) (e : Port)

/-- The plan with an id is the one in the lowest slot that carries it (R70). -/
theorem State.findPlan_iff (id : Byte) (k : SlotId) (p : Plan) : s.findPlan id = some (k, p) ↔
    s.plans[k] = some p ∧ p.id = id ∧ ∀ (j : SlotId) (q : Plan), j < k → s.plans[j] = some q → q.id ≠ id := by
  have lowest {k : SlotId} {p : Plan} (h : s.findPlan id = some (k, p)) (j : SlotId) (q : Plan) (hj : j < k)
      (hq : s.plans[j] = some q) : q.id ≠ id := by
    obtain ⟨i, hi, hbefore⟩ := findSome_allSlots h
    have hik : i = k := by
      cases hx : s.plans[i] with
      | none => simp [hx] at hi
      | some x =>
        simp only [hx, Option.ite_none_right_eq_some, Option.some.injEq, Prod.mk.injEq] at hi
        exact hi.2.1
    have := hbefore j (hik ▸ hj)
    simpa [hq] using this
  constructor
  · intro h
    obtain ⟨hp, hid⟩ := s.findPlan_some id k p h
    exact ⟨hp, hid, lowest h⟩
  · rintro ⟨hp, hid, hlow⟩
    obtain ⟨⟨i, q⟩, hfound⟩ := Option.ne_none_iff_exists'.mp fun h => (s.findPlan_none id).mp h k p hp hid
    obtain ⟨hq, hqid⟩ := s.findPlan_some id i q hfound
    have hik : i = k := by
      rcases lt_trichotomy i k with h | h | h
      · exact absurd hqid (hlow i q h hq)
      · exact h
      · exact absurd hid (lowest hfound k p h hp)
    subst hik
    rw [hp, Option.some.injEq] at hq
    rw [hfound, hq]

theorem Egress.onInject_iff (g : Egress) : g.onInject = true ↔
    g.current = .inject ∧ ∀ ch, g.change = some ch → ch.target = .inject := by
  unfold Egress.onInject
  cases g.change <;> simp

theorem State.claimedForInject_iff : s.claimedForInject e = true ↔
    ∃ id k p, s.claims[e] = some id ∧ s.findPlan id = some (k, p)
      ∧ ∃ d ∈ p.edits, d.egress = e ∧ d.entry.source = .inject := by
  unfold State.claimedForInject
  cases s.claims[e] with
  | none => simp
  | some id =>
    cases hp : s.findPlan id with
    | none => simp [hp]
    | some found =>
      obtain ⟨k, p⟩ := found
      simp [hp]

theorem State.eligible_iff : s.eligible e = true ↔ s.egresses[e].onInject = true
    ∨ ∃ id k p, s.claims[e] = some id ∧ s.findPlan id = some (k, p)
      ∧ ∃ d ∈ p.edits, d.egress = e ∧ d.entry.source = .inject := by
  unfold State.eligible
  rw [Bool.or_eq_true, s.claimedForInject_iff]

end

/-! ### The contexts (R128) -/

theorem Pool.freeContext_none (p : Pool) (h0 : p.contexts[(0 : ContextId)].isSome)
    (h1 : p.contexts[(1 : ContextId)].isSome) : p.freeContext = none := by
  refine List.find?_eq_none.mpr fun k _ => ?_
  rw [Bool.not_eq_true, Option.isNone_eq_false_iff]
  match k with
  | 0 => exact h0
  | 1 => exact h1

/-- The lower-numbered FREE context (R128). -/
theorem Pool.freeContext_lower (p : Pool) {k : ContextId} (hk : p.contexts[k] = none)
    (hlow : k = 1 → p.contexts[(0 : ContextId)].isSome) : p.freeContext = some k := by
  match k with
  | 0 => exact List.find?_cons_of_pos (Option.isNone_iff_eq_none.mpr hk)
  | 1 =>
    refine (List.find?_cons_of_neg ?_).trans (List.find?_cons_of_pos (Option.isNone_iff_eq_none.mpr hk))
    rw [Bool.not_eq_true, Option.isNone_eq_false_iff]
    exact hlow rfl

/-! ### The request (R128) -/

section
variable {s : State} {m : Message} {rest : List Message}

theorem execInjectStart_eq (h : s.CanTake m rest 0x60) : exec .injectStart s
    = .next ((injectStartRequest m (s.taken rest)).2.replied m (injectStartRequest m (s.taken rest)).1) :=
  congrArg Host.Outcome.next (s.execute_kind m rest 0x60 injectStartRequest h)

theorem fragmentFits_iff (fragment : List Byte) :
    fragmentFits fragment = true ↔ 1 ≤ fragment.length ∧ fragment.length ≤ 240 := by
  unfold fragmentFits
  rw [Bool.and_eq_true, decide_eq_true_eq, decide_eq_true_eq]

theorem fragmentFits_false (fragment : List Byte) (h : fragment.length = 0 ∨ 240 < fragment.length) :
    ¬ fragmentFits fragment = true := by
  rw [fragmentFits_iff]
  omega

section
variable (t : State) {b lh ll n : Byte} {fragment : List Byte} (hm : m.payload = b :: lh :: ll :: n :: fragment)
include hm

theorem injectStartRequest_length (h : fragment.length = 0 ∨ 240 < fragment.length) :
    injectStartRequest m t = (Answer.refuse .badLength, t) := by
  unfold injectStartRequest
  rw [hm]
  exact if_neg (fragmentFits_false fragment h)

theorem injectStartRequest_field (hf : 1 ≤ fragment.length ∧ fragment.length ≤ 240)
    (h : 16 ≤ b.toNat ∨ 2 ≤ n.toNat ∨ (readHalf lh ll).toNat = 0 ∨ 1024 < (readHalf lh ll).toNat
      ∨ (readHalf lh ll).toNat < fragment.length) :
    injectStartRequest m t = (Answer.refuse .badField, t) := by
  unfold injectStartRequest
  rw [hm]
  dsimp only
  rw [if_pos ((fragmentFits_iff fragment).mpr hf)]
  split
  · rename_i e notify he hn
    refine if_pos ?_
    have hb : ¬ 16 ≤ b.toNat := fun hb => nomatch he.symm.trans (readBelow_above 16 b hb)
    have hn : ¬ 2 ≤ n.toNat := fun hb => nomatch hn.symm.trans (readFlag_above n hb)
    omega
  · rfl

/-- With its fields in range, the checks that the state decides are left (R128). -/
theorem injectStartRequest_fields {e : Port} (hb : b = natByte e.val) (hn : n.toNat < 2)
    (hf : 1 ≤ fragment.length ∧ fragment.length ≤ 240) (hmax : (readHalf lh ll).toNat ≤ 1024)
    (htotal : fragment.length ≤ (readHalf lh ll).toNat) :
    injectStartRequest m t = t.injectStart e (readHalf lh ll).toNat (decide (n = 1)) fragment := by
  unfold injectStartRequest
  rw [hm]
  dsimp only
  rw [if_pos ((fragmentFits_iff fragment).mpr hf), hb, readBelow_port, readFlag_below n hn]
  exact if_neg (by omega)

end

section
variable (t : State) (e : Port) (total : Nat) (notify : Bool) (fragment : List Byte)

theorem State.injectStart_notInject (h : t.eligible e = false) :
    t.injectStart e total notify fragment = (Answer.refuse .notInject, t) := if_pos h

variable (he : t.eligible e = true)
include he

theorem State.injectStart_noSpace (h : t.pool.freeDescriptors = 0 ∨ t.pool.freeBlocks < blocksFor total) :
    t.injectStart e total notify fragment = (Answer.refuse .noSpace, t) :=
  (if_neg (Bool.not_eq_false _ ▸ he)).trans (if_pos h)

variable (hroom : ¬ (t.pool.freeDescriptors = 0 ∨ t.pool.freeBlocks < blocksFor total))
include hroom

theorem State.injectStart_complete (h : fragment.length = total) :
    t.injectStart e total notify fragment
      = (Answer.ok (halfBytes t.pool.nextId ++ [absent]),
        t.setPool ((t.pool.take total).enqueue e
          { id := t.pool.nextId, notify := notify, bytes := fragment }).advanceId) :=
  (if_neg (Bool.not_eq_false _ ▸ he)).trans ((if_neg hroom).trans (if_pos h))

variable (hshort : fragment.length ≠ total)
include hshort

theorem State.injectStart_noAssembly (h : t.pool.freeContext = none) :
    t.injectStart e total notify fragment = (Answer.refuse .noAssembly, t) := by
  refine (if_neg (Bool.not_eq_false _ ▸ he)).trans ((if_neg hroom).trans ((if_neg hshort).trans ?_))
  rw [h]

theorem State.injectStart_opens {k : ContextId} (h : t.pool.freeContext = some k) :
    t.injectStart e total notify fragment
      = (Answer.ok (halfBytes t.pool.nextId ++ [natByte k.val]),
        t.setPool ((t.pool.take total).setContext k (some
          { target := e, id := t.pool.nextId, total := total, notify := notify, bytes := fragment
            lastFragment := t.timeBase, timer := assemblyCt })).advanceId) := by
  refine (if_neg (Bool.not_eq_false _ ▸ he)).trans ((if_neg hroom).trans ((if_neg hshort).trans ?_))
  rw [h]

end

end

/-- Settles O48: the answers of the request in the order of its checks, the id that comes next, and eligibility. -/
theorem injectStartReservesAndQueues : Obligations.InjectStartReservesAndQueues := by
  refine ⟨fun s m rest t lh ll n fragment hcan hm => ⟨fun hlen => ?_, fun hf1 hf2 => ⟨fun hbad => ?_,
      fun e ht hn hmax htotal => ?_⟩⟩,
    fun p id => ⟨p.idAfter_free id, p.idAfter_first id, p.mem_liveIds⟩,
    fun s e => ⟨s.eligible_iff e, s.egresses[e].onInject_iff, s.findPlan_iff, s.findPlan_none⟩⟩
  · show exec .injectStart s = _
    rw [execInjectStart_eq hcan, injectStartRequest_length _ hm hlen]
  · show exec .injectStart s = _
    rw [execInjectStart_eq hcan, injectStartRequest_field _ hm ⟨hf1, hf2⟩ hbad]
  · intro blocks room p done
    have request := execInjectStart_eq hcan
    rw [injectStartRequest_fields _ hm ht hn ⟨hf1, hf2⟩ hmax htotal] at request
    have hroom_iff : ¬ (s.pool.freeDescriptors = 0 ∨ s.pool.freeBlocks < blocks) ↔ room :=
      not_or.trans (and_congr Iff.rfl Nat.not_lt)
    refine ⟨fun he => ?_, fun he hroom => ?_, fun he hroom hlen => ?_, fun he hroom hlt => ?_⟩
    · exact request.trans (by rw [State.injectStart_notInject (s.taken rest) e _ _ _ he])
    · refine request.trans ?_
      rw [State.injectStart_noSpace (s.taken rest) e _ _ _ he (not_not.mp (hroom_iff.not.mpr hroom))]
    · refine request.trans ?_
      rw [State.injectStart_complete (s.taken rest) e _ _ _ he (hroom_iff.mpr hroom) hlen]
      rfl
    · refine ⟨fun h0 h1 => request.trans ?_, fun k hk hlow => request.trans ?_⟩
      · rw [State.injectStart_noAssembly (s.taken rest) e _ _ _ he (hroom_iff.mpr hroom) (Nat.ne_of_lt hlt)
          (s.pool.freeContext_none h0 h1)]
      · rw [State.injectStart_opens (s.taken rest) e _ _ _ he (hroom_iff.mpr hroom) (Nat.ne_of_lt hlt)
          (s.pool.freeContext_lower hk hlow)]
        rfl

end Sys2Proof.Machine
end

section
/-! INJECT_CONT, INJECT_ABORT, ASSEMBLY_TIMEOUT and POOL_STATUS (R129 to R132, R138, R182). -/

namespace Sys2Proof.Machine

section
variable {s : State} {m : Message} {rest : List Message}

theorem execInjectCont_eq (h : s.CanTake m rest 0x61) : exec .injectCont s
    = .next ((injectContRequest m (s.taken rest)).2.replied m (injectContRequest m (s.taken rest)).1) :=
  congrArg Host.Outcome.next (s.execute_kind m rest 0x61 injectContRequest h)

theorem execInjectAbort_eq (h : s.CanTake m rest 0x62) : exec .injectAbort s
    = .next ((injectAbortRequest m (s.taken rest)).2.replied m (injectAbortRequest m (s.taken rest)).1) :=
  congrArg Host.Outcome.next (s.execute_kind m rest 0x62 injectAbortRequest h)

theorem execPoolStatus_eq (h : s.CanTake m rest 0x63) : exec .poolStatus s
    = .next ((poolStatusRequest m (s.taken rest)).2.replied m (poolStatusRequest m (s.taken rest)).1) :=
  congrArg Host.Outcome.next (s.execute_kind m rest 0x63 poolStatusRequest h)

/-! ### INJECT_CONT (R129, R130) -/

section
variable (t : State) {b oh ol : Byte} {fragment : List Byte} (hm : m.payload = b :: oh :: ol :: fragment)
  (hf : 1 ≤ fragment.length ∧ fragment.length ≤ 240)
include hm hf

theorem injectContRequest_field (h : 2 ≤ b.toNat) : injectContRequest m t = (Answer.refuse .badField, t) := by
  unfold injectContRequest
  rw [hm]
  dsimp only
  rw [if_pos ((fragmentFits_iff fragment).mpr hf), readBelow_above 2 b h]

variable {k : ContextId} (hb : b = natByte k.val)
include hb

theorem injectContRequest_free (h : t.pool.contexts[k] = none) :
    injectContRequest m t = (Answer.refuse .wrongState, t) := by
  unfold injectContRequest
  rw [hm]
  dsimp only
  rw [if_pos ((fragmentFits_iff fragment).mpr hf), hb, readBelow_context]
  dsimp only
  rw [h]

/-- A fragment for an OPEN context is refused with the count received, or stored (R129). -/
theorem injectContRequest_open {c : Context} (h : t.pool.contexts[k] = some c) :
    injectContRequest m t
      = if (readHalf oh ol).toNat ≠ c.bytes.length ∨ c.total < c.bytes.length + fragment.length then
          ({ status := .fragmentOrder, result := natHalf c.bytes.length, restart := false }, t)
        else t.injectStore k c fragment := by
  unfold injectContRequest
  rw [hm]
  dsimp only
  rw [if_pos ((fragmentFits_iff fragment).mpr hf), hb, readBelow_context]
  dsimp only
  rw [h]

end

section
variable (t : State) (k : ContextId) (c : Context) (fragment : List Byte)

/-- The frame goes on being assembled (R129). -/
theorem State.injectStore_goesOn (h : c.bytes.length + fragment.length ≠ c.total) :
    t.injectStore k c fragment
      = (Answer.ok (halfBytes c.id ++ natHalf (c.bytes.length + fragment.length) ++ [0]),
        t.setPool (t.pool.setContext k
          (some { c with bytes := c.bytes ++ fragment, lastFragment := t.timeBase, timer := assemblyCt }))) := by
  unfold State.injectStore
  dsimp only
  rw [List.length_append, if_neg h]

/-- The frame is complete and joins the queue of its target (R130). -/
theorem State.injectStore_completes (h : c.bytes.length + fragment.length = c.total) :
    t.injectStore k c fragment
      = (Answer.ok (halfBytes c.id ++ natHalf c.total ++ [1]),
        t.setPool ((t.pool.setContext k none).enqueue c.target
          { id := c.id, notify := c.notify, bytes := c.bytes ++ fragment })) := by
  unfold State.injectStore
  dsimp only
  rw [List.length_append, if_pos h, h]

end

/-! ### INJECT_ABORT and ASSEMBLY_TIMEOUT (R131, R132) -/

section
variable (t : State) {b : Byte} (hm : m.payload = [b])
include hm

theorem injectAbortRequest_field (h : 2 ≤ b.toNat) : injectAbortRequest m t = (Answer.refuse .badField, t) := by
  unfold injectAbortRequest
  rw [hm]
  dsimp only
  rw [readBelow_above 2 b h]

variable {k : ContextId} (hb : b = natByte k.val)
include hb

theorem injectAbortRequest_free (h : t.pool.contexts[k] = none) :
    injectAbortRequest m t = (Answer.refuse .wrongState, t) := by
  unfold injectAbortRequest
  rw [hm]
  dsimp only
  rw [hb, readBelow_context]
  dsimp only
  rw [h]

theorem injectAbortRequest_open {c : Context} (h : t.pool.contexts[k] = some c) :
    injectAbortRequest m t
      = (Answer.ok (halfBytes c.id ++ natHalf c.bytes.length), t.setPool (t.pool.freeUp k c)) := by
  unfold injectAbortRequest
  rw [hm]
  dsimp only
  rw [hb, readBelow_context]
  dsimp only
  rw [h]

end

/-- The 500 ms of an OPEN context are over: it is freed, and its target told (R132). -/
theorem execAssemblyTimeout_run {k : ContextId} {c : Context} (hp : s.phase = .run) (hc : s.pool.contexts[k] = some c) :
    exec (.assemblyTimeout k) s
      = .next ((s.setPool (s.pool.freeUp k c)).notify
          (.assemblyTimeout c.target c.id c.bytes.length)).arbitrate := by
  refine congrArg Host.Outcome.next ((s.event_taken _ _ hp (by rw [hc]; rfl)).trans ?_)
  rw [hc]

/-! ### POOL_STATUS (R138, R182) -/

theorem poolStatusRequest_ok (t : State) (hm : m.payload = []) :
    poolStatusRequest m t = (Answer.ok t.poolStatusResult, t) := by
  unfold poolStatusRequest
  rw [hm]

theorem poolStatusRequest_length (t : State) (hm : m.payload ≠ []) :
    poolStatusRequest m t = (Answer.refuse .badLength, t) := by
  unfold poolStatusRequest
  split
  · exact absurd ‹_› hm
  · rfl

end

theorem State.viewRecord_length (s : State) (e : Port) : (s.viewRecord e).length = 5 := by
  unfold State.viewRecord
  rw [List.length_append, presentHalf_length]
  rfl

theorem contextRecord_length (now : Word32) (c : Option Context) : (contextRecord now c).length = 11 := by
  cases c <;> rfl

/-- Two bytes of stock, the next id, five bytes of each egress and eleven of each context (R182). -/
theorem State.poolStatusResult_length (s : State) : s.poolStatusResult.length = 106 := by
  have views : (allPorts.flatMap s.viewRecord).length = 80 := by
    rw [List.length_flatMap, List.map_congr_left fun e _ => s.viewRecord_length e]
    rfl
  have contexts : (s.pool.contexts.toList.flatMap (contextRecord s.timeBase)).length = 22 := by
    rw [List.length_flatMap, List.map_congr_left fun c _ => contextRecord_length s.timeBase c, List.map_const',
      Vector.length_toList]
    rfl
  unfold State.poolStatusResult
  rw [List.length_append, List.length_append, views, contexts]
  rfl

theorem State.viewRecord_fields (s : State) (e : Port) :
    s.viewRecord e = [if s.eligible e then 1 else 0, natByte s.pool.views[e].queue.length]
      ++ match s.pool.views[e].sending with
        | none => [0, 0, 0]
        | some f => 1 :: halfBytes f.frame.id := by
  unfold State.viewRecord
  dsimp only
  cases s.pool.views[e].sending <;> rfl

/-- Settles O49: each request's answers in the order of its checks, the timeout, and the report field by field. -/
theorem injectContStoresAndAssembliesEnd : Obligations.InjectContStoresAndAssembliesEnd := by
  refine fun s m rest => ⟨fun k oh ol fragment hcan hm hf1 hf2 => ⟨fun hk => ?_, fun ctx hk => ⟨fun hc => ?_,
      fun c hc => ⟨fun hbad => ?_, fun ho hlt => ?_, fun ho heq => ?_⟩⟩⟩,
    fun k hcan hm => ⟨fun hk => ?_, fun ctx hk => ⟨fun hc => ?_, fun c hc => ?_⟩⟩,
    fun ctx c hp hc => execAssemblyTimeout_run hp hc, fun hcan hm => ?_, fun hcan hm => ?_,
    s.poolStatusResult_length, ?_⟩
  · rw [execInjectCont_eq hcan, injectContRequest_field _ hm ⟨hf1, hf2⟩ hk]
  · rw [execInjectCont_eq hcan, injectContRequest_free (s.taken rest) hm ⟨hf1, hf2⟩ hk hc]
  · rw [execInjectCont_eq hcan, injectContRequest_open (s.taken rest) hm ⟨hf1, hf2⟩ hk hc, if_pos hbad]
  · rw [execInjectCont_eq hcan, injectContRequest_open (s.taken rest) hm ⟨hf1, hf2⟩ hk hc, if_neg (by omega),
      State.injectStore_goesOn _ _ _ _ (Nat.ne_of_lt hlt)]
    rfl
  · rw [execInjectCont_eq hcan, injectContRequest_open (s.taken rest) hm ⟨hf1, hf2⟩ hk hc, if_neg (by omega),
      State.injectStore_completes _ _ _ _ heq]
    rfl
  · rw [execInjectAbort_eq hcan, injectAbortRequest_field _ hm hk]
  · rw [execInjectAbort_eq hcan, injectAbortRequest_free (s.taken rest) hm hk hc]
  · rw [execInjectAbort_eq hcan, injectAbortRequest_open (s.taken rest) hm hk hc]
    rfl
  · rw [execPoolStatus_eq hcan, poolStatusRequest_ok _ hm]
    rfl
  · rw [execPoolStatus_eq hcan, poolStatusRequest_length _ hm]
  · have records : contextRecord s.timeBase = fun
        | none => [0, 0xFF, 0, 0, 0, 0, 0, 0, 0, 0, 0]
        | some c =>
          [1, natByte c.target.val] ++ halfBytes c.id ++ natHalf c.total ++ natHalf c.bytes.length
            ++ [natByte ((c.total + 63) / 64)]
            ++ natHalf (min 499 ((s.timeBase - c.lastFragment).toNat / 1000)) :=
      funext fun c => by cases c <;> rfl
    exact congrArg₂ (fun views contexts => [natByte s.pool.freeBlocks, natByte s.pool.freeDescriptors]
      ++ halfBytes s.pool.nextId ++ allPorts.flatMap views ++ s.pool.contexts.toList.flatMap contexts)
      (funext s.viewRecord_fields) records

end Sys2Proof.Machine
end

section
/-! Frames of INJECT: their start, their characters, their end, the discard and the cut (R37, R44, R134 to R137). -/

namespace Sys2Proof.Machine

section
variable {s : State} {e : Port}

/-! ### The start of a frame (R134) -/

theorem State.frameMayStart_iff (s : State) (e : Port) : s.frameMayStart e = true ↔
    s.egresses[e].state = .steady ∧ s.egresses[e].current = .inject ∧ s.pool.views[e].sending = none
      ∧ s.pool.views[e].gap = 8 ∧ s.pool.views[e].queue ≠ [] := by
  simp only [State.frameMayStart, Bool.and_eq_true, decide_eq_true_eq, Option.isNone_iff_eq_none, Bool.not_eq_true',
    List.isEmpty_eq_false_iff, and_assoc]

theorem State.startFrame_head {f : Frame} {rest : List Frame} (hq : s.pool.views[e].queue = f :: rest) :
    s.startFrame e
      = (s.setPool (s.pool.setView e
          { queue := rest, sending := some { frame := f, sent := 0, shutDue := false }, gap := 0
            startDue := false })).setEgress e (s.egresses[e].receive .inject .opn) := by
  unfold State.startFrame
  dsimp only
  rw [hq]

theorem execInjectFrameStart_taken (hp : s.phase = .run) (h : s.frameMayStart e = true) :
    exec (.injectFrameStart e) s = .next (s.startFrame e).arbitrate :=
  congrArg Host.Outcome.next (s.event_taken _ _ hp h)

/-! ### The end of a frame (R135) -/

theorem execInjectFrameSent_taken (hp : s.phase = .run) (h : s.shutReady e = true) :
    exec (.injectFrameSent e) s = .next (s.sendShut e).arbitrate :=
  congrArg Host.Outcome.next (s.event_taken _ _ hp h)

theorem State.sendShut_settled (h : s.egresses[e].change = none) :
    s.sendShut e = (s.setEgress e { s.egresses[e] with line := some .shut, inside := false }).injectSent e := by
  unfold State.sendShut
  rw [h]

theorem State.sendShut_change {ch : Change} (h : s.egresses[e].change = some ch) :
    s.sendShut e = s.endDrain e .shut := by
  unfold State.sendShut
  rw [h]

theorem State.injectSent_sending {f : SendingFrame} (h : s.pool.views[e].sending = some f) :
    s.injectSent e
      = if f.frame.notify then
          (s.setPool ((s.pool.setView e s.pool.views[e].ended).giveBack 1 f.frame.blocks)).notify
            (.injectSent e f.frame.id f.frame.bytes.length)
        else s.setPool ((s.pool.setView e s.pool.views[e].ended).giveBack 1 f.frame.blocks) := by
  unfold State.injectSent
  dsimp only
  rw [h]

/-- The SHUT of a frame that a drain waits for ends the drain, in any order with the frame (R37, R44, R153). -/
theorem State.sendShut_together {ch : Change} (hc : s.egresses[e].current = .inject)
    (h : s.egresses[e].change = some ch) :
    (s.setEgress e { s.egresses[e] with line := some .shut, inside := false, held := none }).Together
      [[(State.injectSent · e)], [(State.leaveFrame · e ch)]] (s.sendShut e) := by
  rw [State.sendShut_change h, State.endDrain_leaves h]
  dsimp only
  rw [if_pos hc]
  exact State.together_order _ _

/-! ### The cut and the discard (R136, R137) -/

theorem State.injectCut_sending {f : SendingFrame} (h : s.pool.views[e].sending = some f) :
    s.injectCut e
      = (s.setPool ((s.pool.setView e s.pool.views[e].ended).giveBack 1 f.frame.blocks)).notify
          (.frameCut e f.frame.id f.frame.bytes.length f.sent) := by
  unfold State.injectCut
  dsimp only
  rw [h]

theorem State.injectDiscard_pool (s : State) (e : Port) : (s.injectDiscard e).pool = s.pool.discard e := by
  unfold State.injectDiscard
  dsimp only
  split
  · rfl
  · exact (State.notify_sameMap _ _).pool

theorem discard_queue (p : Pool) (e : Port) : (p.discard e).views[e] = { p.views[e] with queue := [] } :=
  setView_same p e _

theorem Pool.contextsFor_length (p : Pool) (e : Port) :
    (p.contextsFor e).length = p.contexts.toList.countP fun c => c.any fun x => decide (x.target = e) := by
  unfold Pool.contextsFor
  rw [List.length_filterMap_eq_countP]
  refine List.countP_congr fun c _ => ?_
  cases c with
  | none => simp
  | some c => simp

/-- Something removed is told in one notice (R136). -/
theorem State.injectDiscard_eq (s : State) (e : Port) :
    s.injectDiscard e
      = (let gone := s.pool.contexts.toList.countP fun c => c.any fun x => decide (x.target = e)
         if s.pool.views[e].queue.length + gone = 0 then s.setPool (s.pool.discard e)
         else (s.setPool (s.pool.discard e)).notify (.targetChanged e s.pool.views[e].queue.length gone)) := by
  dsimp only
  rw [← s.pool.contextsFor_length e]
  rfl

/-! ### A character time of the view (R134) -/

theorem State.viewNewTime_starts (hv : s.pool.views[e].sending = none) (h : s.frameMayStart e = true) :
    s.viewNewTime e = s.setPool (s.pool.setView e { s.pool.views[e] with startDue := true }) := by
  unfold State.viewNewTime
  dsimp only
  rw [hv]
  exact if_pos h

theorem State.viewNewTime_fill (hv : s.pool.views[e].sending = none) (h : s.frameMayStart e = false) :
    s.viewNewTime e
      = (s.setPool (s.pool.setView e
          { s.pool.views[e] with gap := min 8 (s.pool.views[e].gap + 1), startDue := false })).setEgress e
          (s.egresses[e].receive .inject .fill) := by
  unfold State.viewNewTime
  dsimp only
  rw [hv]
  exact if_neg (Bool.eq_false_iff.mp h)

section
variable {f : SendingFrame} (hv : s.pool.views[e].sending = some f)
include hv

/-- DATA that a drain holds back is offered, and counts as sent only once it is on its way (log entry 24). -/
theorem State.viewNewTime_data {b : Byte} (hb : f.frame.bytes[f.sent]? = some b) :
    s.viewNewTime e
      = if (s.egresses[e].receive .inject (.data b)).held.isSome then
          s.setEgress e (s.egresses[e].receive .inject (.data b))
        else
          (s.setPool (s.pool.setView e
            { s.pool.views[e] with sending := some { f with sent := f.sent + 1 } })).setEgress e
            (s.egresses[e].receive .inject (.data b)) := by
  unfold State.viewNewTime
  dsimp only
  rw [hv]
  dsimp only
  rw [hb]

theorem State.viewNewTime_shut (hlen : f.frame.bytes.length ≤ f.sent) :
    s.viewNewTime e
      = let t := s.setPool (s.pool.setView e { s.pool.views[e] with sending := some { f with shutDue := true } })
        if s.egresses[e].state = .draining then t.setEgress e (s.egresses[e].receive .inject .shut) else t := by
  unfold State.viewNewTime
  dsimp only
  rw [hv]
  dsimp only
  rw [List.getElem?_eq_none hlen]

end

theorem viewNewTime_cases (s : State) (e : Port) : ViewNewTime s e := by
  refine ⟨s.frameMayStart_iff e, fun hv => ⟨State.viewNewTime_starts hv, State.viewNewTime_fill hv⟩,
    fun f hv => ⟨fun b hb => ⟨fun hh => ?_, fun hh => ?_⟩, fun hlen => ⟨fun hd => ?_, fun hd => ?_⟩⟩⟩
  · rw [State.viewNewTime_data hv hb, if_neg (by rw [hh]; nofun)]
  · rw [State.viewNewTime_data hv hb, if_pos (Option.isSome_iff_ne_none.mpr hh)]
    dsimp only
    rw [setView_self]
    rfl
  · rw [State.viewNewTime_shut hv hlen]
    exact if_pos hd
  · rw [State.viewNewTime_shut hv hlen]
    exact if_neg hd

end

/-- Settles O50: the frame's start and end, a character time of its view, and how a discard and a cut end it. -/
theorem injectedFramesStartEndAndAreDiscarded : Obligations.InjectedFramesStartEndAndAreDiscarded := by
  intro s e v g freed report
  have sent (f : SendingFrame) (hv : v.sending = some f) :
      s.injectSent e = report f.frame (s.setPool (freed f.frame)) :=
    State.injectSent_sending hv
  refine ⟨fun f rest hp hs hc hv hgap hq => ?_, fun f hp hc hv hf => ⟨fun hs hn => ?_, fun ch hs hch => ?_⟩, sent,
    viewNewTime_cases s e, ⟨?_, fun f hf => ?_, fun k => ?_, ?_, ?_⟩, fun f hv => State.injectCut_sending hv⟩
  · have may : s.frameMayStart e = true :=
      (s.frameMayStart_iff e).mpr ⟨hs, hc, hv, hgap, fun h => nomatch hq.symm.trans h⟩
    rw [execInjectFrameStart_taken hp may, State.startFrame_head hq, Egress.receive_steady hs hc]
    rfl
  · have ready : s.shutReady e = true := (s.shutReady_iff e).mpr ⟨⟨f, hv, hf⟩, hc, .inl hs⟩
    rw [execInjectFrameSent_taken hp ready, State.sendShut_settled hn]
    exact congrArg (fun t => Host.Outcome.next (State.arbitrate t))
      (State.injectSent_sending (s := s.setEgress e { g with line := some .shut, inside := false }) hv)
  · have ready : s.shutReady e = true := (s.shutReady_iff e).mpr ⟨⟨f, hv, hf⟩, hc, .inr hs⟩
    exact ⟨_, execInjectFrameSent_taken hp ready, State.sendShut_together hc hch⟩
  · rw [s.injectDiscard_pool, discard_queue]
  · rw [s.injectDiscard_pool, discard_other s.pool e f hf]
  · rw [s.injectDiscard_pool, discard_contexts]
  · rw [s.injectDiscard_pool]
    rfl
  · rw [s.injectDiscard_pool]
    exact s.injectDiscard_eq e

end Sys2Proof.Machine
end

section
/-! What the arbiter, the notice queue and an occurrence do, case by case (R140, R141, R148 to R152, R166). -/

namespace Sys2Proof.Machine

/-! ### The notice queue (R148, R151, R152) -/

section
variable {q : NoticeQueue} {t : Word32} {first : Word32}

/-- OVERFLOW takes the tail, and the loss record is reset (R152). -/
theorem NoticeQueue.afterDeparture_loss (hf : q.firstLoss = some first) (hl : q.entries.length = 16) :
    q.afterDeparture t
      = { entries := q.entries ++ [{ number := q.next, time := t, body := .overflow q.lost first }]
          next := q.next + 1, lost := 0, firstLoss := none } := by
  unfold NoticeQueue.afterDeparture
  rw [hf]
  dsimp only
  rw [if_pos hl, q.offer_room _ _ (by omega)]

theorem NoticeQueue.afterDeparture_quiet (h : q.firstLoss = none ∨ q.entries.length ≠ 16) : q.afterDeparture t = q := by
  unfold NoticeQueue.afterDeparture
  split
  · rfl
  · rename_i first hf
    exact if_neg (h.resolve_left fun hn => nomatch hf.symm.trans hn)

/-- A departure leaves the queue as it is, or OVERFLOW behind 16 notices (R152). -/
theorem NoticeQueue.afterDeparture_cases (q : NoticeQueue) (t : Word32) :
    q.afterDeparture t = q ∨ q.entries.length = 16 ∧ ∃ n lost first, n.body = .overflow lost first
      ∧ (q.afterDeparture t).entries = q.entries ++ [n] := by
  cases hf : q.firstLoss with
  | none => exact .inl (NoticeQueue.afterDeparture_quiet (.inl hf))
  | some first =>
    by_cases hl : q.entries.length = 16
    · refine .inr ⟨hl, { number := q.next, time := t, body := .overflow q.lost first }, q.lost, first, rfl, ?_⟩
      rw [NoticeQueue.afterDeparture_loss hf hl]
    · exact .inl (NoticeQueue.afterDeparture_quiet (.inr hl))

end

/-! ### The departure of a notice (R148, R150) -/

/-- A departure takes the pending mark of the condition that the notice is for, and changes no other condition. -/
theorem State.departNotice_cond (s : State) (n : Notice) (rest : List Notice) (c : CondId) :
    (s.departNotice n rest).conds[c]
      = if n.body = .condition c then { s.conds[c] with pending := false } else s.conds[c] := by
  unfold State.departNotice
  cases n.body with
  | condition d =>
    by_cases hd : c = d
    · subst hd
      exact (setCond_same s c _).trans (if_pos rfl).symm
    · exact (setCond_other s d _ c hd).trans (if_neg fun h => hd (NoticeBody.condition.inj h).symm).symm
  | _ => rfl

theorem State.departNotice_notices (s : State) (n : Notice) (rest : List Notice) :
    (s.departNotice n rest).notices = ({ s.notices with entries := rest }).afterDeparture s.timeBase := by
  unfold State.departNotice
  cases n.body <;> rfl

theorem State.departNotice_link (s : State) (n : Notice) (rest : List Notice) :
    (s.departNotice n rest).link = s.link ∧ (s.departNotice n rest).straps = s.straps := by
  obtain ⟨_, _, h⟩ := s.departNotice_touches n rest
  rw [h]
  exact ⟨rfl, rfl⟩

/-- What the start of a notice leaves of the link. -/
theorem State.startNotice_link (s : State) (n : Notice) (rest : List Notice) (m : Message) :
    ((s.departNotice n rest).startMessage m false).link
      = { s.link with mtx := some { message := m, restart := false, left := m.duration s.straps.lrate } } := by
  obtain ⟨hl, hs⟩ := s.departNotice_link n rest
  unfold State.startMessage
  rw [hl, hs]
  rfl

/-! ### The arbiter's choice (R166) -/

section
variable {s : State}

theorem State.arbitrate_refusal {r : Reply} {rest : List Reply} (hp : s.phase = .run) (hm : s.link.mtx = none)
    (hr : s.link.refusals = r :: rest) :
    s.arbitrate = (s.setLink { s.link with refusals := rest }).startMessage r.message r.restart := by
  unfold State.arbitrate
  simp only [hp, hm, hr]

theorem State.arbitrate_executed {r : Reply} {rest : List Reply} (hp : s.phase = .run) (hm : s.link.mtx = none)
    (hr : s.link.refusals = []) (hx : s.link.executed = r :: rest) :
    s.arbitrate = (s.setLink { s.link with executed := rest }).startMessage r.message r.restart := by
  unfold State.arbitrate
  simp only [hp, hm, hr, hx]

theorem State.arbitrate_nothing (hr : s.link.refusals = []) (hx : s.link.executed = []) (hn : s.notices.entries = []) :
    s.arbitrate = s := by
  unfold State.arbitrate
  simp only [hr, hx, hn]
  split <;> rfl

/-- With MTX busy, in a reset and with nothing that waits the arbiter does nothing; else it starts the first refusal,
the first executed reply or the oldest notice. -/
theorem State.arbitrate_cases (s : State) :
    (s.arbitrate = s ∧ (s.phase = .run → s.ArbiterAtRest))
    ∨ (∃ r rest, s.link.refusals = r :: rest
        ∧ s.arbitrate = (s.setLink { s.link with refusals := rest }).startMessage r.message r.restart)
    ∨ (∃ r rest, s.link.executed = r :: rest
        ∧ s.arbitrate = (s.setLink { s.link with executed := rest }).startMessage r.message r.restart)
    ∨ ∃ n rest, s.notices.entries = n :: rest
        ∧ s.arbitrate = (s.departNotice n rest).startMessage (n.message s) false := by
  by_cases hp : s.phase = .run
  · cases hm : s.link.mtx with
    | some m =>
      have busy : s.link.mtx.isSome := by rw [hm]; rfl
      exact .inl ⟨s.arbitrate_busy busy, fun _ => .inl busy⟩
    | none =>
      cases hr : s.link.refusals with
      | cons r rest => exact .inr (.inl ⟨r, rest, rfl, State.arbitrate_refusal hp hm hr⟩)
      | nil =>
        cases hx : s.link.executed with
        | cons r rest => exact .inr (.inr (.inl ⟨r, rest, rfl, State.arbitrate_executed hp hm hr hx⟩))
        | nil =>
          cases hn : s.notices.entries with
          | cons n rest => exact .inr (.inr (.inr ⟨n, rest, rfl, s.arbitrate_notice n rest hp hm hr hx hn⟩))
          | nil => exact .inl ⟨State.arbitrate_nothing hr hx hn, fun _ => .inr ⟨hr, hx, hn⟩⟩
  · exact .inl ⟨s.arbitrate_in_reset hp, fun h => absurd h hp⟩

/-- After the arbiter's choice MTX is busy or nothing waits (R166). -/
theorem State.arbitrate_atRest (hp : s.phase = .run) : s.arbitrate.ArbiterAtRest := by
  rcases s.arbitrate_cases with ⟨h, hrest⟩ | ⟨r, rest, -, h⟩ | ⟨r, rest, -, h⟩ | ⟨n, rest, -, h⟩ <;> rw [h]
  · exact hrest hp
  all_goals exact .inl rfl

end

/-! ### Occurrences (R140, R141) -/

section
variable {s : State} {c : CondId}

/-- A clear-to-set transition of a subscribed condition without a pending mark offers a notice (R141). -/
theorem State.occur_offers (hl : s.conds[c].latch = false) (hs : s.conds[c].subscribed = true)
    (hp : s.conds[c].pending = false) :
    s.occur c
      = (s.setCond c { s.conds[c].occurred with pending := s.notices.hasRoom }).notify (.condition c) := by
  have due : (!s.conds[c].latch && s.conds[c].subscribed && !s.conds[c].pending) = true := by rw [hl, hs, hp]; rfl
  exact if_pos due

theorem State.occur_quiet (h : s.conds[c].latch = true ∨ s.conds[c].subscribed = false ∨ s.conds[c].pending = true) :
    s.occur c = s.setCond c s.conds[c].occurred := by
  have notDue : ¬ (!s.conds[c].latch && s.conds[c].subscribed && !s.conds[c].pending) = true := by
    rcases h with h | h | h <;> rw [h] <;> simp
  exact if_neg notDue

/-- Of its own condition an occurrence leaves the subscription, and it may make or take the pending mark. -/
theorem State.occur_own (s : State) (c : CondId) :
    (s.occur c).conds[c] = { s.conds[c].occurred with pending := (s.occur c).conds[c].pending } := by
  unfold State.occur
  dsimp only
  split
  · rw [State.notify_conds, setCond_same]
  · rw [setCond_same]

end

end Sys2Proof.Machine
end

section
/-! Offered notices, and one occurrence of a condition (R140, R141, R148 to R152, R163, R166). -/

namespace Sys2Proof.Machine

/-! ### What is sent of a notice (R150) -/

/-- A notice is read from the time base, and the latch and count of its condition. -/
theorem Notice.message_congr {s t : State} (n : Notice) (htime : t.timeBase = s.timeBase)
    (hcond : ∀ c, n.body = .condition c → t.conds[c].latch = s.conds[c].latch ∧ t.conds[c].count = s.conds[c].count) :
    n.message t = n.message s := by
  obtain ⟨number, time, body⟩ := n
  cases body with
  | hello cause straps =>
    show Message.mk _ _ _ = Message.mk _ _ _
    exact congrArg (fun w => Message.mk 0x80 0 (_ ++ (_ ++ wordBytes w))) htime
  | condition c =>
    obtain ⟨hlatch, hcount⟩ := hcond c rfl
    exact congrArg₂ (fun l k => Message.mk 0x81 0 (_ ++ [natByte c.val, flagByte l, k])) hlatch hcount
  | _ => rfl

/-! ### A notice that alone waits (R163, R166; log entry 7) -/

/-- A notice as it is taken in: the next number and the time base of its event (R149). -/
def State.stamped (s : State) (b : NoticeBody) : Notice := { number := s.notices.next, time := s.timeBase, body := b }

@[simp] theorem setCond_stamped (s : State) (c : CondId) (k : Condition) (b : NoticeBody) :
    (s.setCond c k).stamped b = s.stamped b := by
  unfold State.stamped
  rw [setCond_notices, setCond_timeBase]

section
variable {s : State} (b : NoticeBody) (hp : s.phase = .run) (hm : s.link.mtx = none) (hr : s.link.refusals = [])
  (hx : s.link.executed = []) (hn : s.notices.entries = [])

include hn in
theorem State.offer_alone : s.notices.offer s.timeBase b
    = { s.notices with entries := [s.stamped b], next := s.notices.next + 1 } := by
  rw [s.notices.offer_room _ _ (by rw [hn]; decide), hn]
  rfl

include hp hm hr hx hn

/-- It leaves the queue and starts in that moment. -/
theorem State.notify_alone : s.notify b
    = ((s.setNotices (s.notices.offer s.timeBase b)).departNotice (s.stamped b) []).startMessage
        ((s.stamped b).message s) false := by
  let offered := s.setNotices (s.notices.offer s.timeBase b)
  have entries : offered.notices.entries = [s.stamped b] := congrArg NoticeQueue.entries (State.offer_alone b hn)
  have same : (s.stamped b).message offered = (s.stamped b).message s :=
    Notice.message_congr _ rfl fun _ _ => ⟨rfl, rfl⟩
  rw [← same]
  exact offered.arbitrate_notice (s.stamped b) [] hp hm hr hx entries

theorem State.notify_alone_link :
    (s.notify b).link = { s.link with
      mtx := some
        { message := (s.stamped b).message s, restart := false
          left := ((s.stamped b).message s).duration s.straps.lrate } } := by
  rw [State.notify_alone b hp hm hr hx hn]
  exact State.startNotice_link _ _ _ _

/-- With no loss recorded it leaves the queue empty and the record as it was. -/
theorem State.notify_alone_notices (hf : s.notices.firstLoss = none) :
    (s.notify b).notices = { s.notices with next := s.notices.next + 1 } := by
  rw [State.notify_alone b hp hm hr hx hn, State.offer_alone b hn]
  refine (State.departNotice_notices _ _ _).trans ?_
  rw [NoticeQueue.afterDeparture_quiet (.inl (by exact hf)), ← hn]
  rfl

theorem State.notify_alone_cond (c : CondId) (hb : b = .condition c) : (s.notify b).conds[c].pending = false := by
  rw [State.notify_alone b hp hm hr hx hn]
  show (State.departNotice _ (s.stamped b) []).conds[c].pending = false
  rw [State.departNotice_cond]
  exact congrArg Condition.pending (if_pos hb)

/-- What is sent is the notice as the state that it leaves gives it. -/
theorem State.notify_alone_sent :
    (s.notify b).link.mtx.map (fun m => m.message) = some ((s.stamped b).message (s.notify b)) := by
  have same : (s.stamped b).message (s.notify b) = (s.stamped b).message s := by
    refine Notice.message_congr _ ?_ fun c _ => ?_
    · obtain ⟨_, _, _, h⟩ := s.notify_touches b
      rw [h]
    · rw [s.notify_conds b c]
      exact ⟨rfl, rfl⟩
  rw [State.notify_alone_link b hp hm hr hx hn, same]
  rfl

end

/-- The count of lost notices stops at 255 (R151). -/
theorem satInc_byte (x : Byte) : (satInc x).toNat = min 255 (x.toNat + 1) := by
  rw [satInc_toNat]
  have hlt := x.isLt
  split
  · rename_i hx
    subst hx
    rfl
  · rename_i hx
    have hne : x.toNat ≠ 255 := fun hn => hx (BitVec.eq_of_toNat_eq hn)
    omega

/-- Settles O54: an offer with room and without, a departure with a loss to report and without, and a block's notice
with MTX busy and with MTX idle. -/
theorem noticesAreNumberedLostAndReported : Obligations.NoticesAreNumberedLostAndReported := by
  intro q t b
  refine ⟨q.offer_room t b, fun h => ?_, fun first hf hl => NoticeQueue.afterDeparture_loss hf hl,
    NoticeQueue.afterDeparture_quiet, fun s => ⟨rfl, s.notify_busy b, fun hp hm hr hx hn hf =>
      ⟨State.notify_alone_notices b hp hm hr hx hn hf, State.notify_alone_link b hp hm hr hx hn⟩⟩⟩
  rw [q.offer_full t b h]
  refine ⟨rfl, rfl, ?_, fun hf => ?_, fun first hf => ?_⟩
  · exact satInc_byte q.lost
  · exact congrArg (fun x : Option Word32 => some (x.getD t)) hf
  · exact congrArg (fun x : Option Word32 => some (x.getD t)) hf

/-! ### One occurrence (R140, R141) -/

section
variable {s : State} {c : CondId}

/-- The notice of an occurrence that finds MTX idle and nothing waiting is sent with the latch and count that the
occurrence leaves, and takes its mark with it (R148, R150). -/
theorem State.occur_alone (hl : s.conds[c].latch = false) (hs : s.conds[c].subscribed = true)
    (hk : s.conds[c].pending = false) (hp : s.phase = .run) (ha : s.ArbiterAtRest) (hm : s.link.mtx = none) :
    (s.occur c).conds[c].pending = false ∧ (s.occur c).notices.entries = []
      ∧ (s.occur c).link.mtx.map (fun m => m.message) = some ((s.stamped (.condition c)).message (s.occur c)) := by
  have idle : ¬ s.link.mtx.isSome := by rw [hm]; nofun
  obtain ⟨hr, hx, hn⟩ := ha.resolve_left idle
  let marked := s.setCond c { s.conds[c].occurred with pending := s.notices.hasRoom }
  have offers : s.occur c = marked.notify (.condition c) := State.occur_offers hl hs hk
  obtain ⟨-, -, hempty, -⟩ := marked.notify_idle (.condition c) hp hm hr hx hn
  have sent := State.notify_alone_sent (s := marked) (.condition c) hp hm hr hx hn
  rw [setCond_stamped] at sent
  rw [offers]
  have unmarked := State.notify_alone_cond (s := marked) (.condition c) hp hm hr hx hn c rfl
  exact ⟨unmarked, hempty, sent⟩

end

/-- Settles O51: the count and the latch, the notice that a clear-to-set transition offers, and what stays. -/
theorem occurrenceLatchesCountsAndNotifies : Obligations.OccurrenceLatchesCountsAndNotifies := by
  intro s c k t set marked
  obtain ⟨hlatch, hcount⟩ := s.occur_same c
  have counted : t.conds[c].count.toNat = min 255 (k.count.toNat + 1) := by rw [hcount, satInc_byte]
  refine ⟨hlatch, fun h => by omega, fun h => by omega, ?_, s.occur_only _ c rfl, fun ⟨hl, hs, hk⟩ => ⟨?_, ?_, ?_⟩,
    State.occur_quiet, ?_⟩
  · exact (congrArg Condition.subscribed (s.occur_own c) :)
  · exact State.occur_offers hl hs hk
  · exact fun busy => (State.occur_offers hl hs hk).trans (marked.notify_busy _ busy)
  · exact State.occur_alone hl hs hk
  · obtain ⟨_, _, _, h⟩ := s.occur_touches c
    exact h.trans (by rw [show t = s.occur c from rfl, h])

end Sys2Proof.Machine
end

section
/-! What the arbiter sends, and what the bytes of replies and notices are (R150, R152, R154, R166, R178, R183,
R184). -/

namespace Sys2Proof.Machine

/-- Outcome and source_down of a SETTLED notice in one byte (R176). -/
theorem outcomeByte_primary (o : Settlement) (down : Bool) :
    outcomeByte o false down = o.code + (if down then 8 else 0) := by
  cases o <;> cases down <;> rfl

/-- The fields of a PLAN notice that may be absent (R175, R184). -/
theorem PlanNotice.encode_fields (n : PlanNotice) : n.encode
    = [(match n.event with | .fired => 0 | .done => 1 | .expired => 2), n.id, natByte n.slot.val, n.trigger.code,
        (match n.firedBy with
          | none => 0xFF
          | some .trigger => 0
          | some .override => 1)]
      ++ (match n.epoch with
          | none => [0, 0, 0]
          | some h => 1 :: halfBytes h)
      ++ [(match n.reason with
          | none => 0xFF
          | some .armTimeout => 0
          | some .groupTimeout => 1),
        natByte n.editCount, natByte n.clean, natByte n.forced, natByte n.deadline, natByte n.down] := by
  have event : n.event.code = match n.event with | .fired => 0 | .done => 1 | .expired => 2 := by
    cases n.event <;> rfl
  have fired : (n.firedBy.map FiredBy.code).getD absent = match n.firedBy with
      | none => 0xFF
      | some .trigger => 0
      | some .override => 1 := by
    rcases n.firedBy with _ | _ | _ <;> rfl
  have epoch : presentHalf n.epoch = match n.epoch with
      | none => [0, 0, 0]
      | some h => 1 :: halfBytes h := by
    cases n.epoch <;> rfl
  have reason : (n.reason.map ExpiryReason.code).getD absent = match n.reason with
      | none => 0xFF
      | some .armTimeout => 0
      | some .groupTimeout => 1 := by
    rcases n.reason with _ | _ | _ <;> rfl
  unfold PlanNotice.encode
  rw [event, fired, epoch, reason]

/-- Every message is sent with its fields, those of a CONDITION and of HELLO from the state that sends it (R150). -/
theorem messagesAsSent (s : State) : MessagesAsSent s := by
  refine ⟨fun _ => rfl, rfl, ?_⟩
  intro number time body sent
  have payload (n : Notice) (bytes : List Byte) (h : n.body.encode s = bytes) : n.message s
      = { kind := n.body.kind, tag := 0, payload := halfBytes n.number ++ wordBytes n.time ++ bytes } := by
    rw [← h]
    rfl
  refine ⟨?_, ?_, ?_, ?_, ?_, ?_, ?_, ?_, ?_⟩
  · rintro cause straps rfl
    cases cause <;> rfl
  · rintro c rfl
    rfl
  · rintro n rfl
    exact payload _ _ n.encode_fields
  · rintro e tag source o down rfl
    exact congrArg (fun b => Message.mk 0x83 0 (_ ++ [natByte e.val, tag, source.code, b, _]))
      (outcomeByte_primary o down)
  · rintro e id length rfl
    rfl
  · rintro e id received rfl
    rfl
  · rintro e queued contexts rfl
    rfl
  · rintro e id length count rfl
    rfl
  · rintro lost first rfl
    rfl

/-- D1H, LEN, kind, tag and the two bytes of the check value stand around the payload (R185). -/
theorem Message.envelope_length (m : Message) : m.envelope.length = m.payload.length + 6 := by
  simp [Message.envelope, halfBytes]

theorem messageLasts (m : Message) : MessageLasts m := by
  refine ⟨m.envelope_length, fun lrate rate hrate => ?_⟩
  have hbits : m.duration lrate
      = (10 * m.envelope.length * 100000000 + (bitRate lrate - 1)) / bitRate lrate := by
    unfold Message.duration
    rw [m.envelope_length, Nat.mul_comm (m.payload.length + 6) 10]
    rfl
  obtain rfl : bitRate lrate = rate := by
    fin_cases lrate <;> exact Option.some.inj hrate
  rw [hbits]
  exact div_up_bounds _ _ (by
    unfold bitRate
    repeat' split
    all_goals decide)

/-- Settles O10: the arbiter's choice case by case, what it sends, and what it leaves alone. -/
theorem arbiterSendsRepliesBeforeNotices : Obligations.ArbiterSendsRepliesBeforeNotices := by
  intro s hp
  refine ⟨s.arbitrate_busy, fun r rest hm hr => State.arbitrate_refusal hp hm hr,
    fun r rest hm hr hx => State.arbitrate_executed hp hm hr hx, fun n rest hm hr hx hn => ?_, messagesAsSent s,
    messageLasts, fun _ => State.arbitrate_nothing, ?_⟩
  · rw [s.arbitrate_notice n rest hp hm hr hx hn]
    let sent := (s.departNotice n rest).startMessage (n.message s) false
    have conds (c : CondId) : sent.conds[c] = (s.departNotice n rest).conds[c] := rfl
    have notices : sent.notices = ({ s.notices with entries := rest }).afterDeparture s.timeBase :=
      s.departNotice_notices n rest
    refine ⟨s.startNotice_link n rest _, fun c hc => ?_, fun c hc => ?_, fun h => ?_, fun first hf hl => ?_⟩
    · rw [conds, s.departNotice_cond, if_pos hc]
    · rw [conds, s.departNotice_cond, if_neg hc]
    · exact notices.trans (NoticeQueue.afterDeparture_quiet h)
    · exact notices.trans (NoticeQueue.afterDeparture_loss hf hl)
  · obtain ⟨cs, ns, l, h⟩ := s.arbitrate_touches
    refine ⟨cs, ns, _, h, rfl, rfl, rfl, rfl, fun c => ?_⟩
    have hc := s.arbitrate_conds c
    rw [h] at hc
    rw [hc]
    exact ⟨rfl, rfl, rfl⟩

end Sys2Proof.Machine
end

section
/-! CONDITIONS_READ, CONDITIONS_CLEAR and SUBSCRIBE (R142, R144 to R147). -/

namespace Sys2Proof.Machine

section
variable {s : State} {m : Message} {rest : List Message} {t : State} {scope count : Byte} {ids : List Byte}

/-! ### CONDITIONS_READ (R144) -/

theorem execConditionsRead_eq (h : s.CanTake m rest 0x70) : exec .conditionsRead s
    = .next ((conditionsReadRequest m (s.taken rest)).2.replied m (conditionsReadRequest m (s.taken rest)).1) :=
  congrArg Host.Outcome.next (s.execute_kind m rest 0x70 conditionsReadRequest h)

theorem conditionsReadRequest_ok (hm : m.payload = []) : conditionsReadRequest m t
    = (Answer.ok (t.conds.toList.flatMap Condition.encode ++ t.senses.toList.flatMap Sense.encode), t) := by
  unfold conditionsReadRequest
  rw [hm]

theorem conditionsReadRequest_badLength (hm : m.payload ≠ []) :
    conditionsReadRequest m t = (Answer.refuse .badLength, t) := by
  unfold conditionsReadRequest
  split
  · contradiction
  · rfl

/-- Four bytes for each of the forty conditions, and two for each of the four sense inputs. -/
theorem conditionsReport_length (s : State) :
    (s.conds.toList.flatMap Condition.encode ++ s.senses.toList.flatMap Sense.encode).length = 168 := by
  rw [List.length_append, List.length_flatMap, List.length_flatMap]
  simp [Condition.encode, Sense.encode]

/-! ### CONDITIONS_CLEAR (R145, R146) -/

theorem execConditionsClear_eq (h : s.CanTake m rest 0x71) : exec .conditionsClear s
    = .next ((conditionsClearRequest m (s.taken rest)).2.replied m (conditionsClearRequest m (s.taken rest)).1) :=
  congrArg Host.Outcome.next (s.execute_kind m rest 0x71 conditionsClearRequest h)

theorem idListFits_of (hl : ids.length = count.toNat) (hc : count.toNat ≤ 40) : idListFits count ids = true := by
  unfold idListFits
  rw [decide_eq_true hc, decide_eq_true hl]
  rfl

theorem namedConds_all : namedConds 0 [] = some allConds := rfl

/-- An id below 40 names a condition. -/
theorem any_above_eq_false (h : ∀ i ∈ ids, i.toNat < 40) : (ids.any fun i => decide (40 ≤ i.toNat)) = false :=
  List.any_eq_false.mpr fun i hi => by simpa using h i hi

theorem namedConds_list (hne : ids ≠ []) (h : ∀ i ∈ ids, i.toNat < 40) :
    namedConds 1 ids = some (allConds.filter fun c => ids.contains (natByte c.val)) := by
  unfold namedConds
  rw [if_neg (by decide), if_pos rfl, if_neg]
  rw [any_above_eq_false h, List.isEmpty_iff]
  simpa using hne

theorem namedConds_none (h : 2 ≤ scope.toNat ∨ (scope = 0 ∧ ids ≠ []) ∨ (scope = 1 ∧ ids = [])
    ∨ (scope = 1 ∧ ∃ i ∈ ids, 40 ≤ i.toNat)) : namedConds scope ids = none := by
  unfold namedConds
  rcases h with h | ⟨rfl, h⟩ | ⟨rfl, rfl⟩ | ⟨rfl, i, hi, hb⟩
  · have h0 : scope ≠ 0 := by rintro rfl; exact absurd h (by decide)
    have h1 : scope ≠ 1 := by rintro rfl; exact absurd h (by decide)
    rw [if_neg h0, if_neg h1]
  · rw [if_pos rfl, if_neg (by simpa using h)]
  · rfl
  · rw [if_neg (by decide), if_pos rfl, if_pos (.inr (List.any_eq_true.mpr ⟨i, hi, decide_eq_true hb⟩))]

theorem conditionsClearRequest_refused (hm : m.payload = scope :: count :: ids) (hl : ids.length = count.toNat)
    (hc : count.toNat ≤ 40) (hn : namedConds scope ids = none) :
    conditionsClearRequest m t = (Answer.refuse .badField, t) := by
  unfold conditionsClearRequest
  rw [hm]
  dsimp only
  rw [idListFits_of hl hc, if_pos rfl, hn]

theorem conditionsClearRequest_ok {cs : List CondId} (hm : m.payload = scope :: count :: ids)
    (hl : ids.length = count.toNat) (hc : count.toNat ≤ 40) (hn : namedConds scope ids = some cs) :
    conditionsClearRequest m t
      = (Answer.ok (natByte cs.length :: cs.flatMap t.clearReport), t.clearConds cs) := by
  unfold conditionsClearRequest
  rw [hm]
  dsimp only
  rw [idListFits_of hl hc, if_pos rfl, hn]

theorem Sense.cleared_eq (k : Sense) :
    k.cleared = if k.qualifier = .high then { k with qualifier := .qualifying 20 } else k := by
  unfold Sense.cleared
  cases k.qualifier <;> rfl

theorem contains_filter_allConds (named : CondId → Bool) (c : CondId) : (allConds.filter named).contains c = named c := by
  rw [Bool.eq_iff_iff, List.contains_iff_mem, List.mem_filter]
  exact and_iff_right (List.mem_finRange c)

/-- The conditions that a predicate names cleared: their latches, counts and HIGH qualifiers, and no more (R146). -/
theorem State.clearConds_filter (t : State) (named : CondId → Bool) : t.clearConds (allConds.filter named)
    = { t with
        conds := Vector.ofFn fun c => if named c then { t.conds[c] with latch := false, count := 0 } else t.conds[c]
        senses := Vector.ofFn fun n =>
          if named (senseCond n) ∧ t.senses[n].qualifier = .high then
            { t.senses[n] with qualifier := .qualifying 20 }
          else t.senses[n] } := by
  unfold State.clearConds
  simp only [contains_filter_allConds, Sense.cleared_eq, ite_and]

end

/-! ### SUBSCRIBE (R147) -/

section
variable {s : State} {m : Message} {rest : List Message} {t : State} {count : Byte} {ids : List Byte}

theorem execSubscribe_eq (h : s.CanTake m rest 0x72) : exec .subscribe s
    = .next ((subscribeRequest m (s.taken rest)).2.replied m (subscribeRequest m (s.taken rest)).1) :=
  congrArg Host.Outcome.next (s.execute_kind m rest 0x72 subscribeRequest h)

theorem subscribeRequest_ok (hm : m.payload = count :: ids) (hl : ids.length = count.toNat) (hc : count.toNat ≤ 40)
    (h : ∀ i ∈ ids, i.toNat < 40) : subscribeRequest m t
      = (Answer.ok (natByte (allConds.countP fun c => ids.contains (natByte c.val))
          :: (allConds.filter fun c => ids.contains (natByte c.val)).map fun c => natByte c.val),
        t.subscribeTo ids) := by
  unfold subscribeRequest
  rw [hm]
  dsimp only
  rw [idListFits_of hl hc, if_pos rfl, any_above_eq_false h, if_neg (by decide), List.length_map,
    ← List.countP_eq_length_filter]

theorem subscribeRequest_refused (hm : m.payload = count :: ids) (hl : ids.length = count.toNat)
    (hc : count.toNat ≤ 40) (h : ∃ i ∈ ids, 40 ≤ i.toNat) :
    subscribeRequest m t = (Answer.refuse .badField, t) := by
  obtain ⟨i, hi, hb⟩ := h
  have above : (ids.any fun i => decide (40 ≤ i.toNat)) = true :=
    List.any_eq_true.mpr ⟨i, hi, decide_eq_true hb⟩
  unfold subscribeRequest
  rw [hm]
  dsimp only
  rw [idListFits_of hl hc, if_pos rfl, if_pos above]

end

/-- Settles O52: the answers of the three requests, and what each changes. -/
theorem conditionsAreReadClearedAndSubscribed : Obligations.ConditionsAreReadClearedAndSubscribed := by
  refine fun s m rest => ⟨fun h => ⟨fun hm => ?_, fun hm => ?_, conditionsReport_length s, fun _ => rfl, fun k => ?_⟩,
    fun scope count ids h hm hl hc => ?_, fun count ids h hm hl hc => ⟨fun hi => ?_, fun hi => ?_⟩⟩
  · rw [execConditionsRead_eq h, conditionsReadRequest_ok hm]
    rfl
  · rw [execConditionsRead_eq h, conditionsReadRequest_badLength hm]
  · unfold Sense.encode flagByte
    cases k.qualifier <;> rfl
  · have clears (named : CondId → Bool) (hn : namedConds scope ids = some (allConds.filter named)) :
        exec .conditionsClear s = .next (((s.taken rest).clearConds (allConds.filter named)).replied m (Answer.ok
          (natByte (allConds.countP named) :: (allConds.filter named).flatMap s.clearReport))) := by
      rw [execConditionsClear_eq h, conditionsClearRequest_ok hm hl hc hn, List.countP_eq_length_filter]
      rfl
    refine ⟨fun _ => rfl, ?_, ?_, fun hbad => ?_⟩
    · rintro rfl rfl
      rw [clears (fun _ => true) (namedConds_all.trans (by rw [List.filter_true])), State.clearConds_filter]
      rfl
    · rintro rfl hne hi
      dsimp only
      rw [clears _ (namedConds_list hne hi), State.clearConds_filter]
      rfl
    · rw [execConditionsClear_eq h, conditionsClearRequest_refused hm hl hc (namedConds_none hbad)]
  · rw [execSubscribe_eq h, subscribeRequest_ok hm hl hc hi]
    rfl
  · rw [execSubscribe_eq h, subscribeRequest_refused hm hl hc hi]

end Sys2Proof.Machine
end

section
/-! What the arbiter, a notice and an occurrence keep of the latches, of the stores and of the pending marks (R139 to
R141, R148, R162, R166). -/

namespace Sys2Proof.Machine

/-- The stores keep to their sizes, the reply buffer to `room` entries, and the pending marks stand with their notices
(R139, R148, R161, R162). -/
def State.StoresWithin (room : Nat) (s : State) : Prop :=
  (s.notices.entries.length ≤ 32 ∧ s.MarksAgree) ∧ s.link.intake.length ≤ 4 ∧ s.link.replies ≤ room

/-- From `s` to `t` the part runs on or stays in its reset, and latches and stores are kept.  It speaks of phase,
conditions, notices and link alone, so that an operation on anything else keeps it as it stands. -/
def State.FlagsKept (room : Nat) (s t : State) : Prop :=
  t.phase = s.phase ∧ (s.LatchesAgree → t.LatchesAgree) ∧ (s.StoresWithin room → t.StoresWithin room)

theorem State.storesWithin_iff (s : State) : s.StoresWithin 6 ↔ s.StoresBounded ∧ s.MarksAgree := by
  unfold State.StoresWithin State.StoresBounded
  tauto

theorem State.FlagsKept.refl (room : Nat) (s : State) : s.FlagsKept room s := ⟨rfl, id, id⟩

theorem State.FlagsKept.trans {room : Nat} {s t u : State} (h : s.FlagsKept room t) (k : t.FlagsKept room u) :
    s.FlagsKept room u := by
  obtain ⟨hp, hl, hs⟩ := h
  obtain ⟨kp, kl, ks⟩ := k
  exact ⟨kp.trans hp, kl ∘ hl, ks ∘ hs⟩

/-! ### The notices that stand for a condition (R148) -/

/-- One for a CONDITION notice of `c`, else none. -/
def NoticeBody.countFor (b : NoticeBody) (c : CondId) : Nat := if b = .condition c then 1 else 0

theorem NoticeBody.countFor_other {b : NoticeBody} (hb : ∀ c, b ≠ .condition c) (c : CondId) : b.countFor c = 0 :=
  if_neg (hb c)

theorem countFor_append (q : NoticeQueue) (n : Notice) (c : CondId) :
    ({ q with entries := q.entries ++ [n] } : NoticeQueue).countFor c = q.countFor c + n.body.countFor c := by
  unfold NoticeQueue.countFor NoticeBody.countFor
  rw [List.countP_append, List.countP_singleton]
  simp only [decide_eq_true_eq]

theorem countFor_head {q : NoticeQueue} {n : Notice} {rest : List Notice} (h : q.entries = n :: rest) (c : CondId) :
    q.countFor c = ({ q with entries := rest } : NoticeQueue).countFor c + n.body.countFor c := by
  unfold NoticeQueue.countFor NoticeBody.countFor
  rw [h, List.countP_cons]
  simp only [decide_eq_true_eq]

theorem NoticeQueue.offer_countFor (q : NoticeQueue) (t : Word32) (b : NoticeBody) (c : CondId) :
    (q.offer t b).countFor c = q.countFor c + if q.hasRoom then b.countFor c else 0 := by
  unfold NoticeQueue.offer
  split
  · exact countFor_append q { number := q.next, time := t, body := b } c
  · rfl

theorem NoticeQueue.afterDeparture_countFor (q : NoticeQueue) (t : Word32) (c : CondId) :
    (q.afterDeparture t).countFor c = q.countFor c := by
  rcases q.afterDeparture_cases t with h | ⟨-, n, lost, first, hn, h⟩
  · rw [h]
  · have appended : (q.afterDeparture t).countFor c = q.countFor c + n.body.countFor c :=
      (congrArg (List.countP _) h).trans (countFor_append q n c)
    rw [appended, hn, NoticeBody.countFor_other (b := .overflow lost first) (fun _ => nofun), Nat.add_zero]

theorem NoticeQueue.afterDeparture_length {q : NoticeQueue} (t : Word32) (h : q.entries.length ≤ 32) :
    (q.afterDeparture t).entries.length ≤ 32 := by
  rcases q.afterDeparture_cases t with hq | ⟨hl, n, -, -, -, hq⟩
  · rw [hq]
    exact h
  · rw [hq, List.length_append, hl, List.length_singleton]
    decide

/-! ### The arbiter (R166) -/

section
variable {s t : State} {room : Nat}

/-- The arbiter changes no latch and no count. -/
theorem State.arbitrate_latches (h : s.LatchesAgree) : s.arbitrate.LatchesAgree := by
  intro c
  rw [s.arbitrate_conds c]
  exact h c

/-- A notice that leaves takes the mark of its condition with it (R148). -/
theorem State.departNotice_marks {n : Notice} {rest : List Notice} (hn : s.notices.entries = n :: rest)
    (h : s.MarksAgree) : (s.departNotice n rest).MarksAgree := by
  intro c
  have before : ({ s.notices with entries := rest } : NoticeQueue).countFor c + n.body.countFor c
      = if s.conds[c].pending then 1 else 0 := (countFor_head hn c).symm.trans (h c)
  rw [s.departNotice_notices, NoticeQueue.afterDeparture_countFor, s.departNotice_cond]
  unfold NoticeBody.countFor at before
  split
  · rename_i hb
    rw [if_pos hb] at before
    have marked : (if s.conds[c].pending = true then 1 else 0) ≤ 1 := by split <;> omega
    rw [if_neg Bool.false_ne_true]
    omega
  · rename_i hb
    rwa [if_neg hb, Nat.add_zero] at before

theorem State.arbitrate_stores (h : s.StoresWithin room) : s.arbitrate.StoresWithin room := by
  obtain ⟨⟨hlength, hmarks⟩, hintake, hreplies⟩ := h
  unfold Link.replies at hreplies
  rcases s.arbitrate_cases with ⟨e, -⟩ | ⟨r, rest, hr, e⟩ | ⟨r, rest, hx, e⟩ | ⟨n, rest, hn, e⟩ <;> rw [e]
  · exact ⟨⟨hlength, hmarks⟩, hintake, hreplies⟩
  · refine ⟨⟨hlength, hmarks⟩, hintake, ?_⟩
    rw [hr, List.length_cons] at hreplies
    show rest.length + s.link.executed.length ≤ room
    omega
  · refine ⟨⟨hlength, hmarks⟩, hintake, ?_⟩
    rw [hx, List.length_cons] at hreplies
    show s.link.refusals.length + rest.length ≤ room
    omega
  · have link := s.startNotice_link n rest (n.message s)
    refine ⟨⟨?_, State.departNotice_marks hn hmarks⟩, ?_, ?_⟩
    · show (s.departNotice n rest).notices.entries.length ≤ 32
      rw [s.departNotice_notices]
      refine NoticeQueue.afterDeparture_length _ ?_
      rw [hn, List.length_cons] at hlength
      exact Nat.le_of_succ_le hlength
    · rw [link]
      exact hintake
    · rw [link]
      exact hreplies

theorem State.arbitrate_phase (s : State) : s.arbitrate.phase = s.phase := by
  obtain ⟨_, _, _, h⟩ := s.arbitrate_touches
  rw [h]

theorem State.arbitrate_flagsKept (h : s.FlagsKept room t) : s.FlagsKept room t.arbitrate :=
  h.trans ⟨t.arbitrate_phase, State.arbitrate_latches, State.arbitrate_stores⟩

/-! ### Notices and occurrences (R141, R148) -/

/-- A notice that is no condition's makes and takes no mark. -/
theorem State.notify_flagsKept (h : s.FlagsKept room t) (b : NoticeBody) (hb : ∀ c, b ≠ .condition c) :
    s.FlagsKept room (t.notify b) := by
  refine State.arbitrate_flagsKept (h.trans ⟨rfl, id, fun ⟨⟨hlength, hmarks⟩, hlink⟩ =>
    ⟨⟨t.notices.offer_length _ _ hlength, fun c => ?_⟩, hlink⟩⟩)
  rw [setNotices_notices, NoticeQueue.offer_countFor, NoticeBody.countFor_other hb, ite_self, Nat.add_zero]
  exact hmarks c

/-- A count that has counted is not 0, so the latch that an occurrence sets agrees with it (R140). -/
theorem State.occur_latches (c : CondId) (h : s.LatchesAgree) : (s.occur c).LatchesAgree := by
  intro d
  by_cases hd : d = c
  · obtain ⟨hlatch, hcount⟩ := s.occur_same c
    rw [hd, hlatch, hcount]
    exact iff_of_true rfl (satInc_ne_zero (by decide) _)
  · rw [s.occur_other c d hd]
    exact h d

/-- The mark of a condition is made exactly when the queue takes its notice (R141, R151). -/
theorem State.marked_agrees {c : CondId} {k : Condition} (hk : k.pending = s.notices.hasRoom)
    (hc : s.conds[c].pending = false) (time : Word32) (h : s.MarksAgree) :
    ((s.setCond c k).setNotices (s.notices.offer time (.condition c))).MarksAgree := by
  intro d
  show (s.notices.offer time (.condition c)).countFor d = if (s.setCond c k).conds[d].pending then 1 else 0
  rw [NoticeQueue.offer_countFor, h d]
  unfold NoticeBody.countFor
  by_cases hd : d = c
  · subst hd
    rw [setCond_same, hk, hc, if_pos rfl, if_neg Bool.false_ne_true, Nat.zero_add]
  · rw [setCond_other s c k d hd, if_neg fun e => hd (NoticeBody.condition.inj e).symm, ite_self, Nat.add_zero]

/-- A condition written with the mark it had. -/
theorem State.setCond_marks {c : CondId} {k : Condition} (hk : k.pending = s.conds[c].pending) (h : s.MarksAgree) :
    (s.setCond c k).MarksAgree := by
  intro d
  by_cases hd : d = c
  · rw [hd, setCond_same, hk]
    exact h c
  · rw [setCond_other s c k d hd]
    exact h d

theorem State.occur_stores (c : CondId) (h : s.StoresWithin room) : (s.occur c).StoresWithin room := by
  obtain ⟨⟨hlength, hmarks⟩, hlink⟩ := h
  by_cases due : s.conds[c].latch = true ∨ s.conds[c].subscribed = false ∨ s.conds[c].pending = true
  · rw [State.occur_quiet due]
    exact ⟨⟨hlength, State.setCond_marks rfl hmarks⟩, hlink⟩
  · simp only [not_or, Bool.not_eq_true, Bool.not_eq_false] at due
    obtain ⟨hl, hs, hp⟩ := due
    rw [State.occur_offers hl hs hp]
    exact State.arbitrate_stores
      ⟨⟨s.notices.offer_length _ _ hlength, State.marked_agrees rfl hp s.timeBase hmarks⟩, hlink⟩

theorem State.occur_flagsKept (h : s.FlagsKept room t) (c : CondId) : s.FlagsKept room (t.occur c) := by
  refine h.trans ⟨?_, State.occur_latches c, State.occur_stores c⟩
  obtain ⟨_, _, _, e⟩ := t.occur_touches c
  rw [e]

end

end Sys2Proof.Machine
end

section
/-! What the operations of every block keep of the latches, of the stores and of the pending marks: those that raise a
notice by what a notice and an occurrence keep, and the others by leaving conditions, notices and link alone (R139,
R140, R148, R162). -/

namespace Sys2Proof.Machine

section
variable {s t : State} {room : Nat}

/-! ### Operations that do other operations in turn (R153) -/

theorem State.together_flagsKept (h : s.FlagsKept room t) (blocks : List (List (State → State)))
    (hf : ∀ b ∈ blocks, ∀ f ∈ b, ∀ u : State, s.FlagsKept room u → s.FlagsKept room (f u)) :
    s.FlagsKept room (t.together blocks) :=
  State.together_keeps (s.FlagsKept room) (fun _ _ h => h) t blocks hf h

theorem State.inSomeOrder_flagsKept {α : Type} (h : s.FlagsKept room t) (xs : List α) (f : α → State → State)
    (hf : ∀ (x : α) (u : State), s.FlagsKept room u → s.FlagsKept room (f x u)) :
    s.FlagsKept room (t.inSomeOrder xs f) :=
  State.inSomeOrder_keeps (s.FlagsKept room) t xs f (fun _ _ h => h) (fun x _ => hf x) h

/-! ### The injection buffer (R134 to R137) -/

theorem State.injectDiscard_flagsKept (h : s.FlagsKept room t) (e : Port) : s.FlagsKept room (t.injectDiscard e) := by
  have discarded : s.FlagsKept room (t.setPool (t.pool.discard e)) := h
  unfold State.injectDiscard
  dsimp only
  split
  · exact discarded
  · exact State.notify_flagsKept discarded _ fun _ => nofun

theorem State.injectCut_flagsKept (h : s.FlagsKept room t) (e : Port) : s.FlagsKept room (t.injectCut e) := by
  unfold State.injectCut
  dsimp only
  split
  · exact h
  · exact State.notify_flagsKept (by exact h) _ fun _ => nofun

theorem State.injectSent_flagsKept (h : s.FlagsKept room t) (e : Port) : s.FlagsKept room (t.injectSent e) := by
  unfold State.injectSent
  dsimp only
  split
  · exact h
  · split
    · exact State.notify_flagsKept (by exact h) _ fun _ => nofun
    · exact h

theorem State.startFrame_flagsKept (h : s.FlagsKept room t) (e : Port) : s.FlagsKept room (t.startFrame e) := by
  unfold State.startFrame
  dsimp only
  split <;> exact h

/-! ### Selectors (R33 to R44) -/

theorem State.settle_flagsKept (h : s.FlagsKept room t) (e : Port) (ch : Change) (o : Settlement) :
    s.FlagsKept room (t.settle e ch o) := by
  unfold State.settle State.guardSettled
  dsimp only
  split
  · split
    · exact State.notify_flagsKept h _ fun _ => nofun
    · exact h
  · exact h
  · split
    · exact h
    · split <;> exact h

theorem State.tryJoin_flagsKept (h : s.FlagsKept room t) (e : Port) : s.FlagsKept room (t.tryJoin e) := by
  unfold State.tryJoin
  dsimp only
  split
  · exact h
  · split
    · exact State.settle_flagsKept (by exact h) e _ _
    · exact h

theorem State.leaveFrame_flagsKept (h : s.FlagsKept room t) (e : Port) (ch : Change) :
    s.FlagsKept room (t.leaveFrame e ch) := by
  unfold State.leaveFrame
  dsimp only
  split
  · exact State.settle_flagsKept (by exact h) e _ _
  · exact State.tryJoin_flagsKept (by exact h) e

theorem State.cutLeave_flagsKept (h : s.FlagsKept room t) (e : Port) (ch : Change) :
    s.FlagsKept room (t.cutLeave e ch) := State.leaveFrame_flagsKept (by exact h) e ch

theorem State.putReleased_flagsKept (h : s.FlagsKept room t) (e : Port) (g : Egress) :
    s.FlagsKept room (t.putReleased e g) := by
  unfold State.putReleased
  dsimp only
  split
  · split <;> exact h
  · exact h

theorem State.takeIdle_flagsKept (h : s.FlagsKept room t) (e : Port) (ch : Change) :
    s.FlagsKept room (t.takeIdle e ch) := by
  unfold State.takeIdle
  dsimp only
  split
  · exact State.settle_flagsKept h e ch _
  · split
    · split
      · exact State.cutLeave_flagsKept h e _
      · exact h
    · exact State.leaveFrame_flagsKept h e ch

theorem State.takeDraining_flagsKept (h : s.FlagsKept room t) (e : Port) (ch : Change) :
    s.FlagsKept room (t.takeDraining e ch) := by
  unfold State.takeDraining
  dsimp only
  split
  · exact State.settle_flagsKept (State.putReleased_flagsKept h e _) e _ _
  · split
    · exact State.cutLeave_flagsKept h e _
    · exact State.putReleased_flagsKept h e _

theorem State.actOn_flagsKept (h : s.FlagsKept room t) (e : Port) (ch : Change) : s.FlagsKept room (t.actOn e ch) := by
  unfold State.actOn
  split
  · exact State.takeIdle_flagsKept h e ch
  · exact State.takeIdle_flagsKept h e ch
  · exact State.takeDraining_flagsKept h e ch
  · exact State.leaveFrame_flagsKept h e ch

theorem Egress.injectionPart_flagsKept {g : Egress} {e : Port} {ch : Change} :
    ∀ f ∈ g.injectionPart e ch, ∀ u : State, s.FlagsKept room u → s.FlagsKept room (f u) := by
  intro f hf u hu
  rcases Egress.mem_injectionPart hf with rfl | ⟨rfl, -⟩
  · exact State.injectDiscard_flagsKept hu e
  · exact State.injectCut_flagsKept hu e

theorem Egress.selectorPart_flagsKept {g : Egress} {e : Port} {ch : Change} :
    ∀ f ∈ g.selectorPart e ch, ∀ u : State, s.FlagsKept room u → s.FlagsKept room (f u) := by
  intro f hf u hu
  rcases Egress.mem_selectorPart.mp hf with ⟨old, -, rfl⟩ | rfl
  · exact State.settle_flagsKept hu e old _
  · exact State.actOn_flagsKept hu e ch

theorem State.takeChange_flagsKept (h : s.FlagsKept room t) (e : Port) (ch : Change) :
    s.FlagsKept room (t.takeChange e ch) :=
  State.together_flagsKept h _ fun b hb => by
    rcases List.mem_pair.mp hb with rfl | rfl
    · exact Egress.injectionPart_flagsKept
    · exact Egress.selectorPart_flagsKept

theorem State.endDrain_flagsKept (h : s.FlagsKept room t) (e : Port) (c : Character) :
    s.FlagsKept room (t.endDrain e c) := by
  unfold State.endDrain
  dsimp only
  split
  · exact h
  · rename_i ch _
    split
    · refine State.together_flagsKept (by exact h) _ fun b hb f hf u hu => ?_
      rcases List.mem_pair.mp hb with rfl | rfl <;> rw [List.mem_singleton.mp hf]
      · exact State.injectSent_flagsKept hu e
      · exact State.leaveFrame_flagsKept hu e ch
    · exact State.leaveFrame_flagsKept (by exact h) e ch

theorem State.expireDeadline_flagsKept (h : s.FlagsKept room t) (e : Port) :
    s.FlagsKept room (t.expireDeadline e) := by
  unfold State.expireDeadline
  split
  · exact h
  · dsimp only
    split
    · refine State.together_flagsKept h _ fun b hb f hf u hu => ?_
      rcases List.mem_pair.mp hb with rfl | rfl <;> rw [List.mem_singleton.mp hf]
      · exact State.injectCut_flagsKept hu e
      · exact State.cutLeave_flagsKept hu e _
    · exact State.cutLeave_flagsKept h e _

theorem State.sendShut_flagsKept (h : s.FlagsKept room t) (e : Port) : s.FlagsKept room (t.sendShut e) := by
  unfold State.sendShut
  split
  · exact State.endDrain_flagsKept h e .shut
  · exact State.injectSent_flagsKept (by exact h) e

/-! ### Guards (R53 to R67) -/

theorem State.guardParts_flagsKept (v : State) (e : Port) (m : GuardMove) :
    ∀ b ∈ v.guardParts e m, ∀ f ∈ b, ∀ u : State, s.FlagsKept room u → s.FlagsKept room (f u) := by
  intro b hb f hf u hu
  rcases v.guardParts_cases e m with hm | ⟨g, hm⟩ | ⟨g, ch, hm⟩ <;> rw [hm] at hb
  · exact absurd hb List.not_mem_nil
  · rw [List.mem_singleton.mp hb] at hf
    rw [List.mem_singleton.mp hf]
    exact hu
  · simp only [List.mem_cons, List.not_mem_nil, or_false] at hb
    rcases hb with rfl | rfl | rfl
    · rcases List.mem_pair.mp hf with rfl | rfl
      · exact hu
      · exact State.occur_flagsKept hu _
    · exact Egress.injectionPart_flagsKept f hf u hu
    · exact Egress.selectorPart_flagsKept f hf u hu

theorem State.guardMoves_flagsKept (h : s.FlagsKept room t) (e : Port) (m : GuardMove) :
    s.FlagsKept room (t.guardMoves e m) := State.together_flagsKept h _ (State.guardParts_flagsKept t e m)

theorem State.guardSwitch_flagsKept (h : s.FlagsKept room t) (e : Port) (sel : Selection) (automatic : Bool)
    (g : GuardState) : s.FlagsKept room (t.guardSwitch e sel automatic g) := by
  unfold State.guardSwitch State.hostSwitch
  split
  · exact State.guardMoves_flagsKept h e _
  · split
    · exact State.takeChange_flagsKept (by exact h) e _
    · exact h

theorem State.guardCommand_flagsKept (h : s.FlagsKept room t) (e : Port) (r : Guard) (f : GuardFields)
    (c : GuardCommand) : s.FlagsKept room (t.guardCommand e r f c) := by
  cases c with
  | lock =>
    unfold State.guardCommand State.guardLock
    dsimp only
    split
    · exact h
    · split
      · exact State.guardSwitch_flagsKept h e _ _ _
      · exact h
  | forceStandby =>
    unfold State.guardCommand State.guardForce
    dsimp only
    split
    · exact h
    · split
      · exact State.guardSwitch_flagsKept h e _ _ _
      · exact h
  | clear =>
    unfold State.guardCommand State.guardClear
    dsimp only
    split
    · exact State.guardMoves_flagsKept h e _
    · split
      · exact State.guardMoves_flagsKept h e _
      · exact h

theorem State.guardInit_flagsKept (h : s.FlagsKept room t) (e : Port) : s.FlagsKept room (t.guardInit e) := by
  unfold State.guardInit
  split <;> exact h

theorem State.holdOffIfZero_flagsKept (h : s.FlagsKept room t) (e : Port) :
    s.FlagsKept room (t.holdOffIfZero e) := by
  unfold State.holdOffIfZero
  split
  · split
    · exact State.guardMoves_flagsKept h e _
    · exact h
  · exact h

theorem State.newGuard_flagsKept (h : s.FlagsKept room t) (e : Port) (g : GuardState) :
    s.FlagsKept room (t.newGuard e g) := by
  unfold State.newGuard
  split <;> exact h

theorem State.guardSuspend_flagsKept (h : s.FlagsKept room t) (e : Port) : s.FlagsKept room (t.guardSuspend e) := by
  unfold State.guardSuspend
  split
  · exact h
  · split <;> exact h

theorem State.connect_flagsKept (h : s.FlagsKept room t) (e : Port) (entry : Entry) (d : Nat) (n : Bool)
    (tag : Byte) : s.FlagsKept room (t.connect e entry d n tag) :=
  State.holdOffIfZero_flagsKept (State.takeChange_flagsKept (State.guardInit_flagsKept
    (State.newGuard_flagsKept (by exact h) e _) e) e _) e

/-! ### The group interface (R97 to R107) -/

theorem State.groupTo_flagsKept (h : s.FlagsKept room t) (m : Membership) : s.FlagsKept room (t.groupTo m) := by
  unfold State.groupTo
  split <;> exact h

theorem State.groupEnter_flagsKept (h : s.FlagsKept room t) (r : GroupPlan) : s.FlagsKept room (t.groupEnter r) := by
  unfold State.groupEnter State.groupRelease
  split <;> exact State.groupTo_flagsKept h _

theorem State.groupHoldEnds_flagsKept (h : s.FlagsKept room t) : s.FlagsKept room t.groupHoldEnds := by
  unfold State.groupHoldEnds
  split
  · exact State.groupTo_flagsKept h _
  · split
    · exact State.groupTo_flagsKept h _
    · exact State.groupEnter_flagsKept h _

theorem State.groupArmed_flagsKept (h : s.FlagsKept room t) (r : GroupPlan) : s.FlagsKept room (t.groupArmed r) := by
  unfold State.groupArmed
  dsimp only
  split
  · exact State.groupEnter_flagsKept (by exact h) r
  all_goals exact h

theorem State.groupPlanGone_flagsKept (h : s.FlagsKept room t) : s.FlagsKept room t.groupPlanGone := by
  unfold State.groupPlanGone
  dsimp only
  split
  · exact State.groupTo_flagsKept (by exact h) _
  · exact State.groupTo_flagsKept (by exact h) _
  all_goals exact h

theorem State.groupToldGone_flagsKept (h : s.FlagsKept room t) (first : Bool) :
    s.FlagsKept room (t.groupToldGone first) := by
  unfold State.groupToldGone
  split
  · exact State.groupPlanGone_flagsKept (by exact h)
  · exact State.groupPlanGone_flagsKept h

theorem State.groupLineEvent_flagsKept (h : s.FlagsKept room t) : s.FlagsKept room t.groupLineEvent := by
  unfold State.groupLineEvent
  split
  · exact h
  · split
    · split
      · exact State.groupTo_flagsKept h _
      · exact h
    · split
      · exact h
      · exact State.groupTo_flagsKept h _
    all_goals exact h

/-! ### Line events and reads (R8, R14) -/

theorem State.lineParts_flagsKept (v : State) (p : Port) (old new : LineState) :
    ∀ b ∈ v.lineParts p old new, ∀ f ∈ b, ∀ u : State, s.FlagsKept room u → s.FlagsKept room (f u) := by
  intro b hb f hf u hu
  rcases List.mem_append.mp hb with hb | hb
  · rcases List.mem_append.mp hb with hb | hb
    · split at hb
      · rw [List.mem_singleton.mp hb] at hf
        rw [List.mem_singleton.mp hf]
        exact State.occur_flagsKept hu _
      · exact absurd hb List.not_mem_nil
    · split at hb
      · rw [List.mem_singleton.mp hb] at hf
        rw [List.mem_singleton.mp hf]
        exact State.groupLineEvent_flagsKept hu
      · exact absurd hb List.not_mem_nil
  · obtain ⟨e, -, hb⟩ := List.mem_flatMap.mp hb
    obtain ⟨m, hm⟩ := v.guardLineParts_move e p old new
    exact State.guardParts_flagsKept v e m b (hm ▸ hb) f hf u hu

theorem State.putIngress_flagsKept (h : s.FlagsKept room t) (p : Port) (g : Ingress) :
    s.FlagsKept room (t.putIngress p g) := by
  show s.FlagsKept room ((t.setPort p g).announceLine p t.ports[p].line)
  unfold State.announceLine
  dsimp only
  split
  · exact h
  · exact State.together_flagsKept (by exact h) _ (State.lineParts_flagsKept _ p _ _)

theorem State.readTracker_flagsKept (h : s.FlagsKept room t) (p : Port) : s.FlagsKept room (t.readTracker p) := by
  unfold State.readTracker
  dsimp only
  split
  · exact h
  · exact State.putIngress_flagsKept (by exact h) p _
  · exact h

/-! ### Plans (R76 to R91) -/

theorem State.handEdit_flagsKept (h : s.FlagsKept room t) (id : Byte) (n : Nat) (d : Edit) :
    s.FlagsKept room (t.handEdit id n d) :=
  State.takeChange_flagsKept (State.newGuard_flagsKept (by exact h) d.egress _) d.egress _

theorem State.firePlan_flagsKept (h : s.FlagsKept room t) (k : SlotId) (epoch : Option Half) (byRequest : Bool) :
    s.FlagsKept room (t.firePlan k epoch byRequest) := by
  unfold State.firePlan
  split
  · exact h
  · split
    · dsimp only
      refine List.foldlRecOn _ _ ?_ fun u hu d _ => State.handEdit_flagsKept hu _ _ d
      split
      · exact State.notify_flagsKept (by exact h) _ fun _ => nofun
      · exact h
    · exact h

theorem State.fireWaiting_flagsKept (h : s.FlagsKept room t) (g : Trigger) : s.FlagsKept room (t.fireWaiting g) :=
  State.inSomeOrder_flagsKept h _ _ fun k _ hu => State.firePlan_flagsKept hu k none false

theorem State.takeGroupFire_flagsKept (h : s.FlagsKept room t) : s.FlagsKept room t.takeGroupFire := by
  unfold State.takeGroupFire
  split
  · exact h
  · exact State.firePlan_flagsKept h _ _ _

theorem State.takeMarks_flagsKept (h : s.FlagsKept room t) : s.FlagsKept room t.takeMarks :=
  State.inSomeOrder_flagsKept h _ _ fun p u hu => State.fireWaiting_flagsKept (by exact hu) _

theorem State.resumeGuards_flagsKept (h : s.FlagsKept room t) (es : List Port) :
    s.FlagsKept room (t.resumeGuards es) :=
  State.together_flagsKept h _ fun b hb => by
    obtain ⟨e, -, hb⟩ := List.mem_flatMap.mp hb
    obtain ⟨m, hm⟩ := t.guardResumeParts_move e
    exact State.guardParts_flagsKept t e m b (hm ▸ hb)

theorem State.letGo_flagsKept (h : s.FlagsKept room t) (p : Plan) (first : Bool) :
    s.FlagsKept room (t.letGo p first) := by
  have released : s.FlagsKept room (t.releaseClaims (p.edits.map (·.egress))) :=
    List.foldlRecOn _ _ h fun _ hu _ _ => hu
  have resumed := State.resumeGuards_flagsKept released (p.edits.map (·.egress))
  have dropped : s.FlagsKept room
      (((t.releaseClaims (p.edits.map (·.egress))).resumeGuards (p.edits.map (·.egress))).dropStranded p) :=
    State.inSomeOrder_flagsKept resumed _ _ fun e _ hu => State.injectDiscard_flagsKept hu e
  unfold State.letGo
  dsimp only
  split
  · exact State.groupToldGone_flagsKept dropped first
  · exact dropped

theorem State.expirePlan_flagsKept (h : s.FlagsKept room t) (k : SlotId) (p : Plan) (r : ExpiryReason)
    (first : Bool) : s.FlagsKept room (t.expirePlan k p r first) :=
  State.notify_flagsKept (State.letGo_flagsKept (by exact h) p first) _ fun _ => nofun

theorem State.armPlan_flagsKept (h : s.FlagsKept room t) (k : SlotId) (p : Plan) :
    s.FlagsKept room (t.armPlan k p) := by
  have claimed : s.FlagsKept room (t.takeClaims p) :=
    List.foldlRecOn _ _ h fun u hu e _ => State.guardSuspend_flagsKept (by exact hu) e
  have told (u : State) (hu : s.FlagsKept room u) : s.FlagsKept room (u.tellArmed p) := by
    unfold State.tellArmed
    split
    · exact State.groupArmed_flagsKept hu _
    · exact hu
  have armed := told ((t.takeClaims p).setPlan k (some { p with state := .armed, timer := p.armTimer })) claimed
  unfold State.armPlan
  dsimp only
  split
  · exact State.firePlan_flagsKept armed _ _ _
  · exact armed

theorem State.completePlan_flagsKept (h : s.FlagsKept room t) (k : SlotId) (p : Plan) :
    s.FlagsKept room (t.completePlan k p) := by
  unfold State.completePlan
  dsimp only
  refine State.notify_flagsKept ?_ _ fun _ => nofun
  split <;> exact h

theorem State.editSettled_flagsKept (h : s.FlagsKept room t) (k : SlotId) (q : Plan) (e : Port) :
    s.FlagsKept room (t.editSettled k q e) :=
  State.holdOffIfZero_flagsKept (State.guardInit_flagsKept (by exact h) e) e

theorem State.takeEditSettle_flagsKept (h : s.FlagsKept room t) (e : Port) (ev : PlanSettle) :
    s.FlagsKept room (t.takeEditSettle e ev) := by
  have cleared : s.FlagsKept room (t.setEgress e { t.egresses[e] with planSettle := none }) := h
  unfold State.takeEditSettle
  dsimp only
  split
  · exact cleared
  · split
    · have settled := State.editSettled_flagsKept cleared
      split
      · exact State.completePlan_flagsKept (settled _ _ e) _ _
      · exact settled _ _ e
    · exact cleared

end

end Sys2Proof.Machine
end

section
/-! Every command, and a character time, keeps latches with their counts, the stores within their sizes, pending marks
with their notices, and the arbiter at rest (R139, R140, R148, R161, R162, R166). -/

namespace Sys2Proof.Machine

/-- From `s` to `t` each of the three properties is kept. -/
structure State.FlagsStep (s t : State) : Prop where
  latches : s.LatchesAgree → t.LatchesAgree
  stores : s.StoresWithin 6 → t.StoresWithin 6
  rest : s.ArbiterAtRest → t.ArbiterAtRest

section
variable {s t : State}

theorem State.FlagsStep.refl (s : State) : s.FlagsStep s := ⟨id, id, id⟩

/-! ### The link (R157 to R162) -/

section
variable {room : Nat}

/-- What framer, gap timer, restart pending and MTX hold is no part of the stores. -/
theorem State.setLink_flagsKept (h : s.FlagsKept room t) (l : Link) (hi : l.intake = t.link.intake)
    (hr : l.replies = t.link.replies) : s.FlagsKept room (t.setLink l) :=
  h.trans ⟨rfl, id, fun ⟨hmarks, hintake, hreplies⟩ =>
    ⟨hmarks, (congrArg List.length hi).trans_le hintake, hr.trans_le hreplies⟩⟩

theorem State.framerToSeek_flagsKept (h : s.FlagsKept room t) : s.FlagsKept room t.framerToSeek :=
  State.setLink_flagsKept h _ rfl rfl

theorem State.framerTo_flagsKept (h : s.FlagsKept room t) (f : Framer) : s.FlagsKept room (t.framerTo f) :=
  State.setLink_flagsKept h _ rfl rfl

theorem State.messageDiscarded_flagsKept (h : s.FlagsKept room t) : s.FlagsKept room t.messageDiscarded :=
  State.occur_flagsKept (State.framerToSeek_flagsKept h) _

end

/-- A refusal joins the reply buffer only where an entry is free (R162). -/
theorem State.refuseAtIntake_flagsKept (h : s.FlagsKept 6 t) (kind tag : Byte) (st : Status) :
    s.FlagsKept 6 (t.refuseAtIntake kind tag st) := by
  unfold State.refuseAtIntake
  split
  · rename_i hfree
    have room : t.link.replies < 6 := of_decide_eq_true hfree
    refine h.trans ⟨rfl, id, fun ⟨hmarks, hintake, _⟩ => ⟨hmarks, hintake, ?_⟩⟩
    unfold Link.replies at room
    show (t.link.refusals ++ [_]).length + t.link.executed.length ≤ 6
    rw [List.length_append, List.length_singleton]
    omega
  · exact State.occur_flagsKept h _

/-- A request that passes the checks of R161 finds fewer than four in the intake queue. -/
theorem Link.intake_room {l : Link} {tag : Byte} (h : l.intakeRefusal tag = none) : l.intake.length < 4 := by
  unfold Link.intakeRefusal at h
  split at h
  · cases h
  · split at h
    · cases h
    · split at h
      · cases h
      · omega

theorem State.takeIn_flagsKept (h : s.FlagsKept 6 t) (kind tag : Byte) (payload : List Byte) :
    s.FlagsKept 6 (t.takeIn kind tag payload) := by
  unfold State.takeIn
  split
  · exact State.refuseAtIntake_flagsKept h _ _ _
  · rename_i hnone
    have room := Link.intake_room hnone
    refine h.trans ⟨rfl, id, fun ⟨hmarks, _, hreplies⟩ => ⟨hmarks, ?_, hreplies⟩⟩
    rw [setLink_link, List.length_append, List.length_singleton]
    omega

theorem State.messageReceived_flagsKept (h : s.FlagsKept 6 t) (kind tag : Byte) (payload : List Byte) :
    s.FlagsKept 6 (t.messageReceived kind tag payload) :=
  State.takeIn_flagsKept (State.framerToSeek_flagsKept h) kind tag payload

theorem State.bodyReceived_flagsKept (h : s.FlagsKept 6 t) (got : List Byte) :
    s.FlagsKept 6 (t.bodyReceived got) := by
  unfold State.bodyReceived
  split
  · exact State.messageReceived_flagsKept h _ _ _
  · exact State.framerToSeek_flagsKept h
  · exact State.framerToSeek_flagsKept h

theorem State.takeByte_flagsKept (h : s.FlagsKept 6 t) (b : Byte) (err : Bool) :
    s.FlagsKept 6 (t.takeByte b err) := by
  have discarded := State.messageDiscarded_flagsKept h
  have goesOn := State.framerTo_flagsKept h
  unfold State.takeByte
  split
  · split
    · exact goesOn _
    · exact h
  · split
    · exact discarded
    · split
      · exact goesOn _
      · exact State.framerToSeek_flagsKept h
  · split
    · exact discarded
    · split <;> exact goesOn _
  · split
    · exact discarded
    · exact goesOn _
  · split
    · exact discarded
    · split
      · exact State.bodyReceived_flagsKept h _
      · exact discarded

/-! ### The frame of one event -/

/-- An event ends with the arbiter's choice, so nothing waits at an idle MTX (R166). -/
theorem State.event_flagsStep (can : Bool) (effect : State → State) (h : s.FlagsKept 6 (effect s)) :
    s.FlagsStep (s.event can effect) := by
  unfold State.event
  split
  · rename_i hc
    simp only [Bool.and_eq_true, decide_eq_true_eq] at hc
    obtain ⟨-, latches, stores⟩ := State.arbitrate_flagsKept h
    exact ⟨latches, stores, fun _ => State.arbitrate_atRest (h.1.trans hc.1)⟩
  · exact .refl s

/-- A request that is taken leaves an entry of the reply buffer for its own reply (R163). -/
theorem State.execute_flagsStep (accepts : Byte → Bool) (body : Message → State → Answer × State)
    (h : ∀ (m : Message) (t : State), t.FlagsKept 5 (body m t).2) : s.FlagsStep (s.execute accepts body) := by
  unfold State.execute
  split
  · exact .refl s
  · rename_i m hm
    refine State.event_flagsStep _ _ ?_
    have room : s.link.replies < 6 := by
      unfold State.executorHead Link.entryFree at hm
      split at hm
      · rename_i hfree
        simp only [Bool.and_eq_true, decide_eq_true_eq] at hfree
        exact hfree.1
      · cases hm
    obtain ⟨phase, latches, stores⟩ := h m (s.taken s.link.intake.tail)
    refine ⟨phase, latches, fun ⟨hmarks, hintake, _⟩ => ?_⟩
    have fewer : (s.taken s.link.intake.tail).StoresWithin 5 := by
      refine ⟨hmarks, ?_, Nat.le_of_lt_succ room⟩
      show s.link.intake.tail.length ≤ 4
      rw [List.length_tail]
      omega
    obtain ⟨marks, intake, replies⟩ := stores fewer
    refine ⟨marks, intake, ?_⟩
    show Link.replies (Link.mk _ _ _ _ (_ ++ [_]) _ _) ≤ 6
    unfold Link.replies at replies ⊢
    rw [List.length_append, List.length_singleton]
    exact Nat.succ_le_succ replies

end

section
variable {room : Nat} (m : Message) (t : State)

/-! ### Requests of the connection map, the guards and the plans -/

theorem connectRequest_flagsKept : t.FlagsKept room (connectRequest m t).2 := by
  have h := State.FlagsKept.refl room t
  unfold connectRequest
  split
  · split
    · split
      · exact h
      · exact State.connect_flagsKept h _ _ _ _ _
    · exact h
  · exact h

theorem guardControlRequest_flagsKept : t.FlagsKept room (guardControlRequest m t).2 := by
  have h := State.FlagsKept.refl room t
  unfold guardControlRequest
  split
  · split
    · split
      · split
        · exact h
        · exact State.guardCommand_flagsKept h _ _ _ _
      · exact h
    · exact h
  · exact h

theorem planRequest_flagsKept (act : SlotId → Plan → State → Answer × State)
    (hact : ∀ (k : SlotId) (p : Plan) (t : State), t.FlagsKept room (act k p t).2) :
    t.FlagsKept room (planRequest act m t).2 := by
  have h := State.FlagsKept.refl room t
  unfold planRequest
  split
  · split
    · exact h
    · split
      · exact h
      · exact hact _ _ t
  · exact h

theorem armRequest_flagsKept (k : SlotId) (p : Plan) (t : State) : t.FlagsKept room (armRequest k p t).2 := by
  have h := State.FlagsKept.refl room t
  unfold armRequest
  split
  · exact h
  · exact State.armPlan_flagsKept h k p

theorem fireRequest_flagsKept (k : SlotId) (p : Plan) (t : State) : t.FlagsKept room (fireRequest k p t).2 := by
  have h := State.FlagsKept.refl room t
  unfold fireRequest
  split
  · exact h
  · split
    · exact h
    · exact State.firePlan_flagsKept h _ _ _

theorem cancelRequest_flagsKept (first : Bool) (k : SlotId) (p : Plan) (t : State) :
    t.FlagsKept room (cancelRequest first k p t).2 := by
  have h := State.FlagsKept.refl room t
  unfold cancelRequest
  dsimp only
  split
  · exact h
  · exact State.letGo_flagsKept (by exact h) p first
  all_goals exact h

theorem releaseRequest_flagsKept (k : SlotId) (p : Plan) (t : State) :
    t.FlagsKept room (releaseRequest k p t).2 := by
  unfold releaseRequest
  split <;> exact State.FlagsKept.refl room t

theorem planLoadRequest_flagsKept : t.FlagsKept room (planLoadRequest m t).2 := by
  unfold planLoadRequest State.loadPlan
  repeat' split
  all_goals exact State.FlagsKept.refl room t

theorem planReadRequest_flagsKept : t.FlagsKept room (planReadRequest m t).2 := by
  unfold planReadRequest
  repeat' split
  all_goals exact State.FlagsKept.refl room t

theorem groupConfigRequest_flagsKept : t.FlagsKept room (groupConfigRequest m t).2 := by
  have h := State.FlagsKept.refl room t
  unfold groupConfigRequest
  split
  · split
    · exact h
    · split
      · exact h
      · split
        · exact h
        · exact State.groupTo_flagsKept h _
  · exact h

/-! ### Requests of the link, the ports, the generator and the injection buffer -/

theorem restartRequest_flagsKept : t.FlagsKept room (restartRequest m t).2 := by
  have h := State.FlagsKept.refl room t
  unfold restartRequest
  split
  · exact State.setLink_flagsKept h _ rfl rfl
  · exact h

theorem setFramingRequest_flagsKept : t.FlagsKept room (setFramingRequest m t).2 := by
  unfold setFramingRequest
  dsimp only
  repeat' split
  all_goals exact State.FlagsKept.refl room t

theorem setPortRequest_flagsKept : t.FlagsKept room (setPortRequest m t).2 := by
  unfold setPortRequest
  repeat' split
  all_goals exact State.FlagsKept.refl room t

theorem portStatusRequest_flagsKept : t.FlagsKept room (portStatusRequest m t).2 := by
  unfold portStatusRequest
  dsimp only
  repeat' split
  all_goals exact State.FlagsKept.refl room t

theorem patternConfigRequest_flagsKept : t.FlagsKept room (patternConfigRequest m t).2 := by
  unfold patternConfigRequest
  dsimp only
  repeat' split
  all_goals exact State.FlagsKept.refl room t

theorem injectStartRequest_flagsKept : t.FlagsKept room (injectStartRequest m t).2 := by
  unfold injectStartRequest State.injectStart
  dsimp only
  repeat' split
  all_goals exact State.FlagsKept.refl room t

theorem injectContRequest_flagsKept : t.FlagsKept room (injectContRequest m t).2 := by
  unfold injectContRequest State.injectStore
  dsimp only
  repeat' split
  all_goals exact State.FlagsKept.refl room t

theorem injectAbortRequest_flagsKept : t.FlagsKept room (injectAbortRequest m t).2 := by
  unfold injectAbortRequest
  repeat' split
  all_goals exact State.FlagsKept.refl room t

/-! ### Requests of the condition unit (R145 to R147) -/

/-- Conditions of which each has latch and count as they were or cleared, and its pending mark as it was. -/
theorem State.setConds_flagsKept (cs : Vector Condition 40) (senses : Vector Sense 4)
    (hlatch : ∀ c : CondId, (cs[c].latch = t.conds[c].latch ∧ cs[c].count = t.conds[c].count)
      ∨ (cs[c].latch = false ∧ cs[c].count = 0))
    (hmark : ∀ c : CondId, cs[c].pending = t.conds[c].pending) :
    t.FlagsKept room { t with conds := cs, senses := senses } := by
  refine ⟨rfl, fun h c => ?_, fun ⟨⟨hlength, hmarks⟩, hlink⟩ => ⟨⟨hlength, fun c => ?_⟩, hlink⟩⟩
  · show cs[c].latch = true ↔ cs[c].count ≠ 0
    rcases hlatch c with ⟨hl, hc⟩ | ⟨hl, hc⟩ <;> rw [hl, hc]
    · exact h c
    · decide
  · show _ = if cs[c].pending then 1 else 0
    rw [hmark c]
    exact hmarks c

theorem State.clearConds_flagsKept (cs : List CondId) : t.FlagsKept room (t.clearConds cs) := by
  have cleared (c : CondId) : (t.clearConds cs).conds[c]
      = if cs.contains c then { t.conds[c] with latch := false, count := 0 } else t.conds[c] :=
    Vector.getElem_ofFn c.isLt
  refine State.setConds_flagsKept t (t.clearConds cs).conds (t.clearConds cs).senses (fun c => ?_) fun c => ?_ <;>
    rw [cleared c]
  · split
    · exact .inr ⟨rfl, rfl⟩
    · exact .inl ⟨rfl, rfl⟩
  · split <;> rfl

theorem State.subscribeTo_flagsKept (ids : List Byte) : t.FlagsKept room (t.subscribeTo ids) := by
  have subscribed (c : CondId) : (t.subscribeTo ids).conds[c]
      = { t.conds[c] with subscribed := ids.contains (natByte c.val) } := Vector.getElem_ofFn c.isLt
  refine State.setConds_flagsKept t (t.subscribeTo ids).conds t.senses (fun c => ?_) fun c => ?_ <;>
    rw [subscribed c]
  exact .inl ⟨rfl, rfl⟩

theorem conditionsClearRequest_flagsKept : t.FlagsKept room (conditionsClearRequest m t).2 := by
  have h := State.FlagsKept.refl room t
  unfold conditionsClearRequest
  split
  · split
    · split
      · exact h
      · exact t.clearConds_flagsKept _
    · exact h
  · exact h

theorem subscribeRequest_flagsKept : t.FlagsKept room (subscribeRequest m t).2 := by
  have h := State.FlagsKept.refl room t
  unfold subscribeRequest
  split
  · split
    · split
      · exact h
      · exact t.subscribeTo_flagsKept _
    · exact h
  · exact h

end

section
variable {s t : State}

/-! ### Resets (R139, R148, R167) -/

/-- At a reset every condition is clear and every store empty. -/
theorem State.reset_latches (hc : ∀ c : CondId, t.conds[c] = Condition.afterReset) : t.LatchesAgree := by
  intro c
  rw [hc c]
  decide

theorem State.enterReset_flagsStep (s u : State) (phase : Phase) (tep : Bool) :
    s.FlagsStep (u.enterReset phase tep) := by
  have conds (c : CondId) : (u.enterReset phase tep).conds[c] = Condition.afterReset :=
    Vector.getElem_replicate c.isLt
  refine ⟨fun _ => State.reset_latches conds, fun _ => ⟨⟨Nat.zero_le _, fun c => ?_⟩, Nat.zero_le _, Nat.zero_le _⟩,
    fun _ => .inr ⟨rfl, rfl, rfl⟩⟩
  rw [conds c]
  rfl

/-- HELLO alone stands in the queue as a reset ends, and starts at once (R168). -/
theorem State.endReset_flagsStep (s u : State) (cause : ResetCause) (straps : Straps) :
    s.FlagsStep (u.helloQueued cause straps).arbitrate := by
  have conds (c : CondId) : (u.helloQueued cause straps).conds[c] = Condition.afterReset :=
    Vector.getElem_replicate c.isLt
  have queued : (u.helloQueued cause straps).StoresWithin 6 := by
    obtain ⟨hentries, -⟩ := u.helloQueued_entries cause straps
    refine ⟨⟨?_, fun c => ?_⟩, Nat.zero_le _, Nat.zero_le _⟩
    · rw [hentries, List.length_singleton]
      decide
    · rw [conds c]
      unfold NoticeQueue.countFor
      rw [hentries]
      rfl
  exact ⟨fun _ => State.arbitrate_latches (State.reset_latches conds), fun _ => State.arbitrate_stores queued,
    fun _ => .inl (u.helloQueued_sent cause straps)⟩

/-! ### Events of the ingresses, the timers and the sense inputs -/

theorem execHardwareResetEnd_flagsStep (i : Inputs) (h : exec (.hardwareResetEnd i) s = .next t) :
    s.FlagsStep t := by
  cases hp : s.phase with
  | hardwareReset cause =>
    rw [execHardwareResetEnd_ends i hp] at h
    cases h
    exact State.endReset_flagsStep _ _ _ _
  | run | restart =>
    replace h : execHardwareResetEnd i s = .next t := h
    unfold execHardwareResetEnd at h
    rw [hp] at h
    cases h
    exact .refl s

theorem execRestartEnd_flagsStep (straps : Straps) (h : exec (.restartEnd straps) s = .next t) : s.FlagsStep t := by
  cases hp : s.phase with
  | restart left =>
    rw [execRestartEnd_ends straps hp] at h
    cases h
    exact State.endReset_flagsStep _ _ _ _
  | run | hardwareReset =>
    replace h : execRestartEnd straps s = .next t := h
    unfold execRestartEnd at h
    rw [hp] at h
    cases h
    exact .refl s

theorem execSendComplete_flagsStep (h : execSendComplete s = .next t) : s.FlagsStep t := by
  unfold execSendComplete at h
  split at h
  · rename_i hp _
    split at h <;> cases h
    · exact State.enterReset_flagsStep _ _ _ _
    · obtain ⟨-, latches, stores⟩ := State.arbitrate_flagsKept
        (State.setLink_flagsKept (.refl 6 s) { s.link with mtx := none } rfl rfl)
      exact ⟨latches, stores, fun _ => State.arbitrate_atRest hp⟩
  · cases h
    exact .refl s

theorem execSdDeassert_flagsStep (p : Port) (h : execSdDeassert p s = .next t) : s.FlagsStep t := by
  unfold execSdDeassert at h
  split at h <;> cases h
  · exact State.event_flagsStep _ _ (State.FlagsKept.refl 6 s)
  all_goals exact ⟨id, id, id⟩

theorem execSdAssert_flagsStep (p : Port) (h : execSdAssert p s = .next t) : s.FlagsStep t := by
  unfold execSdAssert at h
  split at h <;> cases h
  · exact State.event_flagsStep _ _ (State.putIngress_flagsKept (.refl 6 s) p _)
  all_goals exact ⟨id, id, id⟩

theorem execGrdyLevelChange_flagsStep (high : Bool) (h : execGrdyLevelChange high s = .next t) : s.FlagsStep t := by
  unfold execGrdyLevelChange at h
  split at h <;> cases h
  · exact State.event_flagsStep _ _ (State.FlagsKept.refl 6 s)
  all_goals exact ⟨id, id, id⟩

theorem execSenseRise_flagsStep (n : SenseId) (h : execSenseRise n s = .next t) : s.FlagsStep t := by
  unfold execSenseRise at h
  split at h <;> cases h
  · exact State.event_flagsStep _ _ (State.FlagsKept.refl 6 s)
  all_goals exact ⟨id, id, id⟩

theorem execSenseFall_flagsStep (n : SenseId) (h : execSenseFall n s = .next t) : s.FlagsStep t := by
  unfold execSenseFall at h
  split at h <;> cases h
  · exact State.event_flagsStep _ _ (State.FlagsKept.refl 6 s)
  all_goals exact ⟨id, id, id⟩

theorem execSenseQualified_flagsStep (n : SenseId) (h : execSenseQualified n s = .next t) : s.FlagsStep t := by
  cases h
  refine State.event_flagsStep _ _ ?_
  have raised : s.FlagsKept 6 (s.setSense n { s.senses[n] with qualifier := .high }) := State.FlagsKept.refl 6 s
  have latched := State.occur_flagsKept raised (senseCond n)
  unfold State.qualifySense
  dsimp only
  split
  · exact latched
  · exact State.fireWaiting_flagsKept latched _

theorem execTrackerRead_flagsStep (p : Port) (h : execTrackerRead p s = .next t) : s.FlagsStep t := by
  cases h
  have before : s.FlagsKept 6 (s.beforeRead p) := by
    unfold State.beforeRead
    split
    · exact .refl 6 s
    · exact State.takeMarks_flagsKept (.refl 6 s)
  have after (u : State) (hu : s.FlagsKept 6 u) : s.FlagsKept 6 u.afterRead := by
    unfold State.afterRead
    split
    · exact State.takeMarks_flagsKept hu
    · exact hu
  exact State.event_flagsStep _ _ (after _ (State.readTracker_flagsKept before p))

theorem execNoiseWindowEnd_flagsStep (p : Port) (h : execNoiseWindowEnd p s = .next t) : s.FlagsStep t := by
  cases h
  refine State.event_flagsStep _ _ ?_
  split
  · exact .refl 6 s
  · exact State.putIngress_flagsKept (.refl 6 s) p _

theorem execDrainEnd_flagsStep (e : Port) (h : execDrainEnd e s = .next t) : s.FlagsStep t := by
  cases h
  refine State.event_flagsStep _ _ ?_
  split
  · exact .refl 6 s
  · exact State.endDrain_flagsKept (.refl 6 s) e _

theorem execEditSettle_flagsStep (e : Port) (h : execEditSettle e s = .next t) : s.FlagsStep t := by
  cases h
  refine State.event_flagsStep _ _ ?_
  split
  · exact .refl 6 s
  · exact State.takeEditSettle_flagsKept (.refl 6 s) e _

theorem execArmExpiry_flagsStep (k : SlotId) (h : execArmExpiry k s = .next t) : s.FlagsStep t := by
  cases h
  refine State.event_flagsStep _ _ ?_
  split
  · exact .refl 6 s
  · exact State.expirePlan_flagsKept (.refl 6 s) k _ _ _

theorem execGroupWaitExpiry_flagsStep (k : SlotId) (first : Bool) (h : execGroupWaitExpiry k first s = .next t) :
    s.FlagsStep t := by
  cases h
  refine State.event_flagsStep _ _ ?_
  split
  · exact .refl 6 s
  · exact State.expirePlan_flagsKept (.refl 6 s) k _ _ _

theorem execHoldOffExpiry_flagsStep (e : Port) (h : execHoldOffExpiry e s = .next t) : s.FlagsStep t := by
  cases h
  refine State.event_flagsStep _ _ ?_
  split
  · exact .refl 6 s
  · exact State.guardMoves_flagsKept (.refl 6 s) e _

theorem execAssemblyTimeout_flagsStep (k : ContextId) (h : execAssemblyTimeout k s = .next t) : s.FlagsStep t := by
  cases h
  refine State.event_flagsStep _ _ ?_
  split
  · exact .refl 6 s
  · exact State.notify_flagsKept (by exact State.FlagsKept.refl 6 s) _ fun _ => nofun

/-! ### Every command -/

/-- Every command keeps the three: each event by what its operations keep and by the arbiter's choice at its end, and
the resets by emptying the stores. -/
theorem exec_flagsStep (c : Instr) (s t : State) (h : exec c s = .next t) : s.FlagsStep t := by
  have kept : s.FlagsKept 6 s := .refl 6 s
  cases c
  case hardwareReset => cases h; exact State.enterReset_flagsStep _ _ _ _
  case hardwareResetEnd i => exact execHardwareResetEnd_flagsStep i h
  case restartEnd straps => exact execRestartEnd_flagsStep straps h
  case sendComplete => exact execSendComplete_flagsStep h
  case requestArrival => cases h; exact State.event_flagsStep _ _ (State.messageReceived_flagsKept kept _ _ _)
  case checkFailure => cases h; exact State.event_flagsStep _ _ (State.messageDiscarded_flagsKept kept)
  case lenOutOfRange => cases h; exact State.event_flagsStep _ _ (State.framerToSeek_flagsKept kept)
  case gapTimerExpiry =>
    cases h
    exact State.event_flagsStep _ _ (State.occur_flagsKept (State.framerToSeek_flagsKept kept) _)
  case byteReceived => cases h; exact State.event_flagsStep _ _ (State.takeByte_flagsKept kept _ _)
  case unknownRequestKind => cases h; exact State.execute_flagsStep _ _ fun _ t => .refl 5 t
  case echo =>
    cases h
    exact State.execute_flagsStep _ _ fun m t => by unfold echoRequest; split <;> exact .refl 5 t
  case status =>
    cases h
    exact State.execute_flagsStep _ _ fun m t => by unfold statusRequest; split <;> exact .refl 5 t
  case restart => cases h; exact State.execute_flagsStep _ _ restartRequest_flagsKept
  case setFraming => cases h; exact State.execute_flagsStep _ _ setFramingRequest_flagsKept
  case setPort => cases h; exact State.execute_flagsStep _ _ setPortRequest_flagsKept
  case portStatus => cases h; exact State.execute_flagsStep _ _ portStatusRequest_flagsKept
  case connect => cases h; exact State.execute_flagsStep _ _ connectRequest_flagsKept
  case mapRead =>
    cases h
    exact State.execute_flagsStep _ _ fun m t => by unfold mapReadRequest; split <;> exact .refl 5 t
  case guardControl => cases h; exact State.execute_flagsStep _ _ guardControlRequest_flagsKept
  case planLoad => cases h; exact State.execute_flagsStep _ _ planLoadRequest_flagsKept
  case planArm =>
    cases h
    exact State.execute_flagsStep _ _ fun m t => planRequest_flagsKept m t _ armRequest_flagsKept
  case planFire =>
    cases h
    exact State.execute_flagsStep _ _ fun m t => planRequest_flagsKept m t _ fireRequest_flagsKept
  case planCancel first =>
    cases h
    exact State.execute_flagsStep _ _ fun m t => planRequest_flagsKept m t _ (cancelRequest_flagsKept first)
  case planRelease =>
    cases h
    exact State.execute_flagsStep _ _ fun m t => planRequest_flagsKept m t _ releaseRequest_flagsKept
  case planRead => cases h; exact State.execute_flagsStep _ _ planReadRequest_flagsKept
  case groupConfig => cases h; exact State.execute_flagsStep _ _ groupConfigRequest_flagsKept
  case groupStatus =>
    cases h
    exact State.execute_flagsStep _ _ fun m t => by unfold groupStatusRequest; split <;> exact .refl 5 t
  case patternConfig => cases h; exact State.execute_flagsStep _ _ patternConfigRequest_flagsKept
  case injectStart => cases h; exact State.execute_flagsStep _ _ injectStartRequest_flagsKept
  case injectCont => cases h; exact State.execute_flagsStep _ _ injectContRequest_flagsKept
  case injectAbort => cases h; exact State.execute_flagsStep _ _ injectAbortRequest_flagsKept
  case poolStatus =>
    cases h
    exact State.execute_flagsStep _ _ fun m t => by unfold poolStatusRequest; split <;> exact .refl 5 t
  case conditionsRead =>
    cases h
    exact State.execute_flagsStep _ _ fun m t => by unfold conditionsReadRequest; split <;> exact .refl 5 t
  case conditionsClear => cases h; exact State.execute_flagsStep _ _ conditionsClearRequest_flagsKept
  case subscribe => cases h; exact State.execute_flagsStep _ _ subscribeRequest_flagsKept
  case sdDeassert p => exact execSdDeassert_flagsStep p h
  case sdAssert p => exact execSdAssert_flagsStep p h
  case sdLossTimerExpiry p => cases h; exact State.event_flagsStep _ _ (State.putIngress_flagsKept kept p _)
  case characterReceived p c re => cases h; exact State.event_flagsStep _ _ (State.putIngress_flagsKept kept p _)
  case trackerRead p => exact execTrackerRead_flagsStep p h
  case noiseWindowEnd p => exact execNoiseWindowEnd_flagsStep p h
  case trafficTimerExpiry p => cases h; exact State.event_flagsStep _ _ (State.putIngress_flagsKept kept p _)
  case drainEnd e => exact execDrainEnd_flagsStep e h
  case deadlineExpiry e => cases h; exact State.event_flagsStep _ _ (State.expireDeadline_flagsKept kept e)
  case joinComplete e => cases h; exact State.event_flagsStep _ _ (State.tryJoin_flagsKept kept e)
  case editSettle e => exact execEditSettle_flagsStep e h
  case armExpiry k => exact execArmExpiry_flagsStep k h
  case groupWaitExpiry k first => exact execGroupWaitExpiry_flagsStep k first h
  case holdOffExpiry e => exact execHoldOffExpiry_flagsStep e h
  case waitToRestoreExpiry e => cases h; exact State.event_flagsStep _ _ (State.guardSwitch_flagsKept kept e _ _ _)
  case grdyLevelChange high => exact execGrdyLevelChange_flagsStep high h
  case qualificationComplete =>
    cases h
    exact State.event_flagsStep _ _ (State.takeGroupFire_flagsKept (by exact kept))
  case holdExpiry => cases h; exact State.event_flagsStep _ _ (State.groupHoldEnds_flagsKept kept)
  case faultTimerExpiry => cases h; exact State.event_flagsStep _ _ (State.occur_flagsKept (by exact kept) _)
  case patternFrameStart => cases h; exact State.event_flagsStep _ _ kept
  case injectFrameStart e => cases h; exact State.event_flagsStep _ _ (State.startFrame_flagsKept kept e)
  case injectFrameSent e => cases h; exact State.event_flagsStep _ _ (State.sendShut_flagsKept kept e)
  case assemblyTimeout k => exact execAssemblyTimeout_flagsStep k h
  case senseRise n => exact execSenseRise_flagsStep n h
  case senseFall n => exact execSenseFall_flagsStep n h
  case senseQualified n => exact execSenseQualified_flagsStep n h

/-! ### One character time (log entry 5) -/

/-- A character time moves the timers of the link, and a busy MTX stays busy. -/
theorem State.newTime_flagsStep (s : State) : s.FlagsStep s.newTime := by
  cases hp : s.phase with
  | run =>
    rw [State.newTime_run hp, s.runNewTime_sources.frame]
    exact ⟨id, id, Or.imp_left Option.isSome_map.trans⟩
  | restart left =>
    rw [State.newTime_restart hp]
    exact ⟨id, id, id⟩
  | hardwareReset cause =>
    rw [State.newTime_hardwareReset hp]
    exact .refl s

end

/-- Settles O55: every command, and a character time with nothing due, keeps each of the three. -/
theorem everyStepKeepsLatchesStoresAndMarks : Obligations.EveryStepKeepsLatchesStoresAndMarks := by
  refine ⟨?_, ?_, ?_⟩
  · exact keptByStep_of_exec _ (fun _ _ h => h) (fun _ _ h => h)
      (fun c s t hs h => (exec_flagsStep c s t h).latches hs) fun s hs _ => s.newTime_flagsStep.latches hs
  · simp only [← State.storesWithin_iff]
    exact keptByStep_of_exec _ (fun _ _ h => h) (fun _ _ h => h)
      (fun c s t hs h => (exec_flagsStep c s t h).stores hs) fun s hs _ => s.newTime_flagsStep.stores hs
  · exact keptByStep_of_exec _ (fun _ _ h => h) (fun _ _ h => h)
      (fun c s t hs h => (exec_flagsStep c s t h).rest hs) fun s hs _ => s.newTime_flagsStep.rest hs

end Sys2Proof.Machine
end

section
/-! The check value (section 9.2, R155). -/

namespace Sys2Proof.Machine

/-- A data bit equal to the bit shifted out leaves the shift alone (R155). -/
theorem checkBit_shiftedOut (v : Half) {bit : Bool} (h : v.getLsbD 15 = bit) : checkBit v bit = v <<< 1 := if_pos h

/-- The data bits that the check value itself shifts out, taken in one after the other, leave no 1021H in it: `n` of
them shift it by `n`. -/
theorem checkBits_own (v : Half) (b : Byte) (h : ∀ i < 8, b.getLsbD i = v.getLsbD (8 + i)) (n : Nat) (hn : n ≤ 8) :
    ((List.range n).map (7 - ·)).foldl (fun w i => checkBit w (b.getLsbD i)) v = v <<< n := by
  induction n with
  | zero => simp
  | succ n ih =>
    have out : (v <<< n).getLsbD 15 = b.getLsbD (7 - n) := by
      rw [h (7 - n) (by omega), BitVec.getLsbD_shiftLeft, show 8 + (7 - n) = 15 - n by omega]
      simp [show ¬ 15 < n by omega]
    rw [List.range_succ, List.map_append, List.foldl_append, ih (by omega)]
    exact (checkBit_shiftedOut _ out).trans (BitVec.shiftLeft_add v n 1).symm

/-- A check value that takes in its own high byte is shifted left by eight. -/
theorem checkByte_ownHigh (v : Half) : checkByte v (v.extractLsb' 8 8) = v <<< 8 :=
  checkBits_own v _ (fun i hi => by simp [hi]) 8 le_rfl

/-- Carried on through its own two bytes a check value becomes 0 (R155). -/
theorem checkBytes_own (v : Half) : (halfBytes v).foldl checkByte v = 0 := by
  have low : v.extractLsb' 0 8 = (v <<< 8).extractLsb' 8 8 := by
    refine BitVec.eq_of_getLsbD_eq fun i hi => ?_
    simp [hi]
    omega
  calc (halfBytes v).foldl checkByte v
      = checkByte (checkByte v (v.extractLsb' 8 8)) (v.extractLsb' 0 8) := rfl
    _ = (v <<< 8) <<< 8 := by rw [checkByte_ownHigh, low, checkByte_ownHigh]
    _ = 0 := by rw [← BitVec.shiftLeft_add]; exact BitVec.shiftLeft_eq_zero le_rfl

/-- Settles O9: the value of 31H to 39H by evaluation, the residue from `checkBytes_own`, and the definitions as the
manual writes them. -/
theorem checkValueIsTheCrcOfTheManual : Obligations.CheckValueIsTheCrcOfTheManual := by
  refine ⟨by decide +kernel, fun bs => ?_, fun _ => rfl, fun _ _ => rfl, fun _ => rfl⟩
  unfold checkValue
  rw [List.foldl_append]
  exact checkBytes_own _

end Sys2Proof.Machine
end

section
/-! The arrival of a request (R161, R162). -/

namespace Sys2Proof.Machine

section
variable {s : State} {kind tag : Byte} {payload : List Byte}

/-! ### The three checks, in their order (R161) -/

theorem Link.intakeRefusal_badTag (l : Link) : l.intakeRefusal 0 = some .badTag := if_pos rfl

theorem Link.intakeRefusal_tagInUse {l : Link} (h0 : tag ≠ 0) (h : ∃ m ∈ l.intake, m.tag = tag) :
    l.intakeRefusal tag = some .tagInUse := by
  have used : (l.intake.any fun m => decide (m.tag = tag)) = true := by simpa using h
  exact (if_neg h0).trans (if_pos used)

/-- A tag that passes the first two checks leaves the third, the room in the intake queue. -/
theorem Link.intakeRefusal_newTag {l : Link} (h0 : tag ≠ 0) (h : ∀ m ∈ l.intake, m.tag ≠ tag) :
    l.intakeRefusal tag = if 4 ≤ l.intake.length then some .busy else none := by
  have unused : ¬ (l.intake.any fun m => decide (m.tag = tag)) = true := by simpa using h
  exact (if_neg h0).trans (if_neg unused)

/-! ### What an arrival does -/

theorem State.takeIn_refused {st : Status} (h : s.link.intakeRefusal tag = some st) :
    s.takeIn kind tag payload = s.refuseAtIntake kind tag st := by
  unfold State.takeIn
  rw [h]

theorem State.takeIn_accepted (h : s.link.intakeRefusal tag = none) :
    s.takeIn kind tag payload
      = s.setLink { s.link with
          intake := s.link.intake ++ [{ kind := kind, tag := tag, payload := payload }] } := by
  unfold State.takeIn
  rw [h]

/-- A refusal waits behind the refusals while one of the six entries is free, and else counts as LINK_OVERRUN
(R162). -/
theorem State.refuseAtIntake_room (s : State) (kind tag : Byte) (st : Status) :
    s.refuseAtIntake kind tag st
      = if s.link.refusals.length + s.link.executed.length < 6 then
          s.setLink { s.link with
            refusals := s.link.refusals
              ++ [{ kind := kind &&& 0x7F, tag := tag, status := st, result := [], restart := false }] }
        else s.occur 38 :=
  if_congr decide_eq_true_iff rfl rfl

theorem execRequestArrival_eq (hp : s.phase = .run) (hr : s.link.restartPending = false)
    (hl : payload.length ≤ 248) :
    exec (.requestArrival kind tag payload) s = .next (s.messageReceived kind tag payload).arbitrate :=
  congrArg Host.Outcome.next (s.event_taken _ _ hp (by simp [State.listening, hr, maxPayload, hl]))

end

/-- Settles O6: each outcome of the checks, on the state whose framer is in SEEK again. -/
theorem requestArrivalChecksTagAndRoom : Obligations.RequestArrivalChecksTagAndRoom := by
  intro s kind tag payload hp hr hl f refused
  have arrival : exec (.requestArrival kind tag payload) s = .next (f.takeIn kind tag payload).arbitrate :=
    execRequestArrival_eq hp hr hl
  have refusal {st : Status} (h : f.link.intakeRefusal tag = some st) :
      exec (.requestArrival kind tag payload) s = .next (refused st).arbitrate := by
    rw [arrival, State.takeIn_refused h, State.refuseAtIntake_room]
    rfl
  refine ⟨fun h0 => refusal ?_, fun h0 hused => refusal (Link.intakeRefusal_tagInUse h0 hused),
    fun h0 hnew hfull => refusal ?_, fun h0 hnew hroom => ?_⟩
  · rw [h0]
    exact f.link.intakeRefusal_badTag
  · exact (Link.intakeRefusal_newTag h0 hnew).trans (if_pos hfull)
  · have accepted : f.link.intakeRefusal tag = none :=
      (Link.intakeRefusal_newTag h0 hnew).trans (if_neg (Nat.not_le.mpr hroom))
    rw [arrival, State.takeIn_accepted accepted]
    rfl

end Sys2Proof.Machine
end

section
/-! The receive framer, byte by byte, and the envelope of a message read back (R155, R157 to R160, R185). -/

namespace Sys2Proof.Machine

theorem lenInRange_iff (b : Byte) : lenInRange b = true ↔ 2 ≤ b.toNat ∧ b.toNat ≤ 250 := by
  simp [lenInRange]

theorem readHalf_halfBytes (v : Half) : readHalf (v.extractLsb' 8 8) (v.extractLsb' 0 8) = v := by
  refine BitVec.eq_of_toNat_eq ?_
  rw [readHalf_toNat]
  simp [BitVec.extractLsb'_toNat, Nat.shiftRight_eq_div_pow]
  omega

/-! ### One byte in each framer state (R157, R158, R160) -/

section
variable {s : State} {b : Byte} {err : Bool} {len : Nat} {got : List Byte} {check : Half} {hi : Byte}

theorem State.takeByte_start (hf : s.link.framer = .seek) : s.takeByte 0xD1 false = s.framerTo .length := by
  unfold State.takeByte
  rw [hf]
  rfl

theorem State.takeByte_skipped (hf : s.link.framer = .seek) (h : b ≠ 0xD1 ∨ err = true) : s.takeByte b err = s := by
  have noStart : ¬ (b = 0xD1 ∧ err = false) := fun ⟨hb, he⟩ => by simp [hb, he] at h
  unfold State.takeByte
  rw [hf]
  exact if_neg noStart

/-- A framing error inside a message discards it (R160). -/
theorem State.takeByte_framingError (hf : s.link.framer ≠ .seek) : s.takeByte b true = s.messageDiscarded := by
  unfold State.takeByte
  cases h : s.link.framer with
  | seek => exact absurd h hf
  | length | body | checkHigh | checkLow => rfl

theorem State.takeByte_len (hf : s.link.framer = .length) :
    s.takeByte b false
      = if lenInRange b then s.framerTo (.body b.toNat [] (checkByte 0xFFFF b)) else s.framerToSeek := by
  unfold State.takeByte
  rw [hf]
  rfl

theorem State.takeByte_body (hf : s.link.framer = .body len got check) :
    s.takeByte b false
      = if got.length + 1 = len then s.framerTo (.checkHigh (got ++ [b]) (checkByte check b))
        else s.framerTo (.body len (got ++ [b]) (checkByte check b)) := by
  unfold State.takeByte
  rw [hf]
  rfl

theorem State.takeByte_checkHigh (hf : s.link.framer = .checkHigh got check) :
    s.takeByte b false = s.framerTo (.checkLow got check b) := by
  unfold State.takeByte
  rw [hf]
  rfl

theorem State.takeByte_checkLow (hf : s.link.framer = .checkLow got check hi) :
    s.takeByte b false = if readHalf hi b = check then s.bodyReceived got else s.messageDiscarded := by
  unfold State.takeByte
  rw [hf]
  rfl

end

section
variable {s : State} (hp : s.phase = .run) (hr : s.link.restartPending = false)
include hp hr

theorem execByteReceived_eq (b : Byte) (err : Bool) :
    exec (.byteReceived b err) s = .next (s.takeByte b err).arbitrate :=
  congrArg Host.Outcome.next (s.event_taken _ _ hp (by simp [State.listening, hr]))

theorem execCheckFailure_eq : exec .checkFailure s = .next s.messageDiscarded.arbitrate :=
  congrArg Host.Outcome.next (s.event_taken _ _ hp (by simp [State.listening, hr]))

theorem execLenOutOfRange_eq {len : Byte} (hl : lenInRange len = false) :
    exec (.lenOutOfRange len) s = .next s.framerToSeek.arbitrate :=
  congrArg Host.Outcome.next (s.event_taken _ _ hp (by simp [State.listening, hr, hl]))

end

/-- Settles O7: a byte in each framer state, and the events of a discarded message. -/
theorem framerFollowsItsBytes : Obligations.FramerFollowsItsBytes := by
  intro s b err hp hr goes back next
  have takes {t : State} (h : s.takeByte b err = t) : next t := by
    rw [← h]
    exact execByteReceived_eq hp hr b err
  refine ⟨?start, fun hf h => takes (State.takeByte_skipped hf h), ?len, ?badLen, ?body, ?lastOfBody, ?checkHigh,
    ?checkFails, ?message, ?framingError, execCheckFailure_eq hp hr, fun hgap => ?gap, fun l hl => ?lenEvent⟩
  case start =>
    rintro hf rfl rfl
    exact takes (State.takeByte_start hf)
  case len =>
    rintro hf rfl h2 h250
    exact takes ((State.takeByte_len hf).trans (if_pos ((lenInRange_iff b).mpr ⟨h2, h250⟩)))
  case badLen =>
    rintro hf rfl hout
    have bad : ¬ lenInRange b = true := by rw [lenInRange_iff]; omega
    exact takes ((State.takeByte_len hf).trans (if_neg bad))
  case body =>
    rintro len got check hf rfl hmore
    exact takes ((State.takeByte_body hf).trans (if_neg hmore))
  case lastOfBody =>
    rintro len got check hf rfl hlast
    exact takes ((State.takeByte_body hf).trans (if_pos hlast))
  case checkHigh =>
    rintro got check hf rfl
    exact takes (State.takeByte_checkHigh hf)
  case checkFails =>
    rintro got check hi hf rfl hne
    exact takes ((State.takeByte_checkLow hf).trans (if_neg hne))
  case message =>
    rintro kind tag payload check hi hf rfl hcheck
    have arrives := takes ((State.takeByte_checkLow hf).trans (if_pos hcheck))
    exact ⟨arrives, fun hl => arrives.trans (execRequestArrival_eq hp hr hl).symm⟩
  case framingError =>
    rintro hf rfl
    exact takes (State.takeByte_framingError hf)
  case gap => exact congrArg Host.Outcome.next (s.event_taken _ _ hp hgap)
  case lenEvent =>
    have bad : lenInRange l = false := by rw [Bool.eq_false_iff, ne_eq, lenInRange_iff]; omega
    exact execLenOutOfRange_eq hp hr bad

/-! ### The bytes of one message (R158, R185) -/

theorem State.ArbiterAtRest.arbitrate_eq {s : State} (h : s.ArbiterAtRest) : s.arbitrate = s := by
  rcases h with busy | ⟨hr, hx, hn⟩
  · exact s.arbitrate_busy busy
  · exact State.arbitrate_nothing hr hx hn

/-- The bytes behind D1H: LEN and the body, and the check value over both (R185). -/
theorem Message.envelope_cons (m : Message) : m.envelope
    = 0xD1 :: m.len :: (m.kind :: m.tag :: m.payload
        ++ halfBytes ((m.kind :: m.tag :: m.payload).foldl checkByte (checkByte 0xFFFF m.len))) := by
  rw [← List.foldl_cons]
  rfl

/-- The framer takes the bytes of MRX as they come, and the arbiter has nothing to do in between. -/
structure State.Receives (s : State) : Prop where
  running : s.phase = .run
  listens : s.link.restartPending = false
  atRest : s.ArbiterAtRest

theorem State.Receives.framerTo {s : State} (h : s.Receives) (f : Framer) : (s.framerTo f).Receives :=
  ⟨h.running, h.listens, h.atRest⟩

@[simp] theorem State.framerTo_framer (s : State) (f : Framer) : (s.framerTo f).link.framer = f := rfl

/-- The framer's last move alone is left to see. -/
@[simp] theorem State.framerTo_framerTo (s : State) (f g : Framer) : (s.framerTo f).framerTo g = s.framerTo g := rfl

section
variable {s : State} (hs : s.Receives)
include hs

theorem State.Receives.feed_cons (b : Byte) (bs : List Byte) :
    s.feed (b :: bs) = (s.takeByte b false).arbitrate.feed bs := by
  have one : afterCommand (.byteReceived b false) s = (s.takeByte b false).arbitrate := by
    unfold afterCommand
    rw [execByteReceived_eq hs.running hs.listens]
  exact congrArg (State.feed · bs) one

/-- A byte with which the framer goes on leaves the arbiter nothing to do. -/
theorem State.Receives.feed_framerTo {b : Byte} {f : Framer} (bs : List Byte) (h : s.takeByte b false = s.framerTo f) :
    s.feed (b :: bs) = (s.framerTo f).feed bs := by
  rw [hs.feed_cons, h, (hs.framerTo f).atRest.arbitrate_eq]

/-- The rest of a body, from any place in it: the bytes join those received, and the check value takes them in. -/
theorem State.Receives.feed_body {len : Nat} (b : Byte) (bs rest got : List Byte) (check : Half)
    (hlen : got.length + (b :: bs).length = len) :
    (s.framerTo (.body len got check)).feed (b :: bs ++ rest)
      = (s.framerTo (.checkHigh (got ++ b :: bs) ((b :: bs).foldl checkByte check))).feed rest := by
  induction bs generalizing b got check with
  | nil =>
    have last : got.length + 1 = len := hlen
    have taken := State.takeByte_body (b := b) (s.framerTo_framer (.body len got check))
    rw [if_pos last] at taken
    exact (hs.framerTo _).feed_framerTo rest taken
  | cons c cs ih =>
    have more : got.length + 1 ≠ len := by simp only [List.length_cons] at hlen; omega
    have taken := State.takeByte_body (b := b) (s.framerTo_framer (.body len got check))
    rw [if_neg more] at taken
    have tail := ih c (got ++ [b]) (checkByte check b) (by simp at hlen ⊢; omega)
    rw [List.append_assoc, List.singleton_append] at tail
    exact ((hs.framerTo _).feed_framerTo (c :: cs ++ rest) taken).trans tail

/-- The check value of the bytes received closes the message (R158). -/
theorem State.Receives.feed_check (kind tag : Byte) (payload : List Byte) (check : Half) :
    (s.framerTo (.checkHigh (kind :: tag :: payload) check)).feed (halfBytes check)
      = (s.messageReceived kind tag payload).arbitrate := by
  have high := (hs.framerTo (.checkHigh (kind :: tag :: payload) check)).feed_framerTo [check.extractLsb' 0 8]
    (State.takeByte_checkHigh (b := check.extractLsb' 8 8) rfl)
  have low := (hs.framerTo (.checkLow (kind :: tag :: payload) check (check.extractLsb' 8 8))).feed_cons
    (check.extractLsb' 0 8) []
  rw [State.takeByte_checkLow rfl, if_pos (readHalf_halfBytes check)] at low
  exact high.trans low

/-- The envelope of a message, received in SEEK, is that message received (R155, R158, R185). -/
theorem State.Receives.feed_envelope (m : Message) (hf : s.link.framer = .seek) (hl : m.payload.length ≤ 248) :
    s.feed m.envelope = (s.messageReceived m.kind m.tag m.payload).arbitrate := by
  have len : m.len.toNat = m.payload.length + 2 := by
    unfold Message.len natByte
    rw [BitVec.toNat_ofNat]
    omega
  have inRange : lenInRange m.len = true := (lenInRange_iff _).mpr (by omega)
  have started := State.takeByte_len (b := m.len) (s.framerTo_framer .length)
  rw [if_pos inRange, len] at started
  have body (rest : List Byte) := hs.feed_body m.kind (m.tag :: m.payload) rest [] (checkByte 0xFFFF m.len)
    (len := m.payload.length + 2) (by simp)
  rw [m.envelope_cons, hs.feed_framerTo _ (State.takeByte_start hf), (hs.framerTo .length).feed_framerTo _ started,
    State.framerTo_framerTo, body]
  exact hs.feed_check m.kind m.tag m.payload _

end

/-- Settles O8: both sides are the message received, and the arbiter's choice. -/
theorem envelopeBytesAreTheMessage : Obligations.EnvelopeBytesAreTheMessage := by
  intro s m hp hr hf ha hl
  rw [execRequestArrival_eq hp hr hl, State.Receives.feed_envelope ⟨hp, hr, ha⟩ m hf hl]

end Sys2Proof.Machine
end

section
/-! ECHO, STATUS and the kinds that are no request (R164, R171 to R173). -/

namespace Sys2Proof.Machine

section
variable {s : State} {m : Message} {rest : List Message}

/-! ### ECHO (R172) -/

theorem execEcho_eq (h : s.CanTake m rest 0x01) : exec .echo s
    = .next ((echoRequest m (s.taken rest)).2.replied m (echoRequest m (s.taken rest)).1) :=
  congrArg Host.Outcome.next (s.execute_kind m rest 0x01 echoRequest h)

theorem echoRequest_ok (t : State) (hm : m.payload.length ≤ 247) : echoRequest m t = (Answer.ok m.payload, t) :=
  if_pos hm

theorem echoRequest_length (t : State) (hm : 248 ≤ m.payload.length) :
    echoRequest m t = (Answer.refuse .badLength, t) :=
  if_neg (by omega)

end

/-- Settles O12: the two lengths of ECHO. -/
theorem echoReturnsItsPayload : Obligations.EchoReturnsItsPayload := by
  refine fun s m rest h => ⟨fun hm => ?_, fun hm => ?_⟩
  · rw [execEcho_eq h, echoRequest_ok _ hm]
  · rw [execEcho_eq h, echoRequest_length _ hm]

/-! ### The plan counts of STATUS (R171) -/

theorem PlanState.code_inj (x y : PlanState) : x.code = y.code ↔ x = y := by
  cases x <;> cases y <;> decide

theorem slotCode_free (p : Option Plan) : slotCode p = 0 ↔ p.isNone = true := by
  cases p with
  | none => simp [slotCode]
  | some q =>
    have taken : q.state.code ≠ 0 := by cases q.state <;> decide
    simpa [slotCode] using taken

theorem slotCode_state (p : Option Plan) (x : PlanState) :
    slotCode p = x.code ↔ (p.any fun q => decide (q.state = x)) = true := by
  cases p with
  | none =>
    have noFree : 0 ≠ x.code := by cases x <;> decide
    simpa [slotCode] using noFree
  | some q => simp [slotCode, PlanState.code_inj]

/-- The seven counts are those of the FREE slots and of the slots in each plan state. -/
theorem State.planCounts_states (s : State) : s.planCounts
    = natByte (s.plans.toList.countP fun p => p.isNone)
      :: ([PlanState.loaded, .armed, .applying, .done, .expired, .cancelled].map fun x =>
          natByte (s.plans.toList.countP fun p => p.any fun q => decide (q.state = x))) := by
  have free : (s.plans.toList.countP fun p => decide (slotCode p = 0)) = s.plans.toList.countP fun p => p.isNone :=
    List.countP_congr fun p _ => by rw [decide_eq_true_iff, slotCode_free]
  have inState (x : PlanState) : (s.plans.toList.countP fun p => decide (slotCode p = x.code))
      = s.plans.toList.countP fun p => p.any fun q => decide (q.state = x) :=
    List.countP_congr fun p _ => by rw [decide_eq_true_iff, slotCode_state]
  rw [← free]
  simp only [← inState]
  rfl

/-- Every slot is counted under one code. -/
theorem slotCounts_sum (l : List (Option Plan)) :
    (planStateCodes.map fun c => l.countP fun p => decide (slotCode p = c)).sum = l.length := by
  have once (p : Option Plan) : (planStateCodes.map fun c => if slotCode p = c then 1 else 0).sum = 1 := by
    rcases p with _ | q
    · rfl
    · rw [show slotCode (some q) = q.state.code from rfl]
      cases q.state <;> rfl
  induction l with
  | nil => rfl
  | cons p l ih =>
    simp only [List.countP_cons, List.sum_map_add, decide_eq_true_iff, ih, once, List.length_cons]

theorem State.planCounts_sum (s : State) : (s.planCounts.map BitVec.toNat).sum = 8 := by
  have slots : s.plans.toList.length = 8 := by simp
  have byte (c : Byte) : (natByte (s.plans.toList.countP fun p => decide (slotCode p = c))).toNat
      = s.plans.toList.countP fun p => decide (slotCode p = c) := by
    have bound := List.countP_le_length (p := fun p => decide (slotCode p = c)) (l := s.plans.toList)
    unfold natByte
    rw [BitVec.toNat_ofNat]
    omega
  unfold State.planCounts
  simp only [List.map_map, Function.comp_def, byte]
  exact (slotCounts_sum _).trans slots

/-! ### STATUS (R171) -/

section
variable {s : State} {m : Message} {rest : List Message}

theorem execStatus_eq (h : s.CanTake m rest 0x02) : exec .status s
    = .next ((statusRequest m (s.taken rest)).2.replied m (statusRequest m (s.taken rest)).1) :=
  congrArg Host.Outcome.next (s.execute_kind m rest 0x02 statusRequest h)

theorem statusRequest_ok (t : State) (hm : m.payload = []) : statusRequest m t = (Answer.ok t.statusResult, t) := by
  unfold statusRequest
  rw [hm]

theorem statusRequest_length (t : State) (hm : m.payload ≠ []) :
    statusRequest m t = (Answer.refuse .badLength, t) := by
  obtain ⟨b, bs, h⟩ := List.exists_cons_of_ne_nil hm
  unfold statusRequest
  rw [h]

/-- The result of STATUS once its request has left the intake queue; restart pending is clear, or no request is
executed (R163, R171). -/
theorem State.statusResult_taken (h : s.CanTake m rest 0x02) :
    (s.taken rest).statusResult
      = [0x16, 0x10, 1] ++ wordBytes s.timeBase
        ++ [natByte rest.length, natByte (s.link.replies + 1), 0,
            natByte s.notices.entries.length, flagByte s.notices.firstLoss.isSome, s.notices.lost]
        ++ s.planCounts := by
  obtain ⟨-, hr, -⟩ := h
  have flag : flagByte (s.taken rest).link.restartPending = 0 := congrArg flagByte hr
  unfold State.statusResult
  rw [flag]
  rfl

/-! ### Unknown kinds (R164, R173) -/

theorem requestKinds_low {kind : Byte} (h : kind ∈ requestKinds) : kind.toNat < 128 := by
  have low : ∀ k ∈ requestKinds, k.toNat < 128 := by decide
  exact low kind h

theorem execUnknownRequestKind_eq (h : s.CanTake m rest m.kind) (hk : m.kind ∉ requestKinds) :
    exec .unknownRequestKind s = .next ((s.taken rest).replied m (Answer.refuse .badKind)) :=
  congrArg Host.Outcome.next (s.execute_accepted m rest m.kind _ _ h (by simpa using hk))

end

/-- Settles O13: the result and the refusal of STATUS, its plan counts, and the refusal of an unknown kind. -/
theorem statusReportsAndUnknownKindsAreRefused : Obligations.StatusReportsAndUnknownKindsAreRefused := by
  refine fun s m rest => ⟨fun h hm => ?_, fun h hm => ?_, s.planCounts_states, rfl, s.planCounts_sum,
    execUnknownRequestKind_eq, fun hhigh hk => ?_, rfl, fun _ => rfl, fun _ => rfl, fun _ => rfl⟩
  · rw [execStatus_eq h, statusRequest_ok _ hm, State.statusResult_taken h]
  · rw [execStatus_eq h, statusRequest_length _ hm]
  · exact absurd (requestKinds_low hk) (Nat.not_lt.mpr hhigh)

end Sys2Proof.Machine
end

section
/-! The payload length of each request (R164, R177). -/

namespace Sys2Proof.Machine

/-! ### The answer of one request, by its length -/

/-- What R177 asks of the answer `r` on the state `t`: where the length is not allowed, BAD_LENGTH with nothing
changed, and any other answer where it is. -/
structure LengthDecides (allowed : Prop) (t : State) (r : Answer × State) : Prop where
  refuses : ¬ allowed → r = (Answer.refuse .badLength, t)
  carriesOut : allowed → r.1.status ≠ .badLength

/-- The body of a request checks its payload's length, and nothing before it (R164, R177). -/
def ChecksLength (body : Message → State → Answer × State) (allowed : List Byte → Prop) : Prop :=
  ∀ (m : Message) (t : State), LengthDecides (allowed m.payload) t (body m t)

section
variable {allowed : Prop} {t : State} {r : Answer × State}

theorem LengthDecides.of_allowed (h : allowed) (hr : r.1.status ≠ .badLength) : LengthDecides allowed t r :=
  ⟨fun hn => absurd h hn, fun _ => hr⟩

theorem LengthDecides.of_not (h : ¬ allowed) : LengthDecides allowed t (Answer.refuse .badLength, t) :=
  ⟨fun _ => rfl, fun ha => absurd ha h⟩

/-- The check itself, with what is carried out behind it. -/
theorem LengthDecides.of_ite {check : Prop} [Decidable check] (hc : check ↔ allowed) (hr : r.1.status ≠ .badLength) :
    LengthDecides allowed t (if check then r else (Answer.refuse .badLength, t)) := by
  split
  · exact .of_allowed (hc.mp ‹_›) hr
  · exact .of_not (mt hc.mpr ‹_›)

end

/-! ### Requests of a fixed length -/

theorem echoRequest_checksLength : ChecksLength echoRequest fun p => p.length ≤ 247 :=
  fun _ t => ⟨fun h => echoRequest_length t (Nat.lt_of_not_le h), fun h => by rw [echoRequest_ok t h]; nofun⟩

/-- A body that answers an empty payload and refuses every other checks for the length 0. -/
theorem checksLength_zero {body : Message → State → Answer × State}
    (hempty : ∀ m t, m.payload = [] → (body m t).1.status ≠ .badLength)
    (hmore : ∀ m t, m.payload ≠ [] → body m t = (Answer.refuse .badLength, t)) :
    ChecksLength body fun p => p.length = 0 :=
  fun m t => ⟨fun h => hmore m t (mt List.length_eq_zero_iff.mpr h),
    fun h => hempty m t (List.length_eq_zero_iff.mp h)⟩

theorem statusRequest_checksLength : ChecksLength statusRequest fun p => p.length = 0 :=
  checksLength_zero (fun _ t hm => by rw [statusRequest_ok t hm]; nofun) fun _ t => statusRequest_length t

theorem restartRequest_length {m : Message} (t : State) (hm : m.payload ≠ []) :
    restartRequest m t = (Answer.refuse .badLength, t) := by
  obtain ⟨b, bs, h⟩ := List.exists_cons_of_ne_nil hm
  unfold restartRequest
  rw [h]

theorem restartRequest_checksLength : ChecksLength restartRequest fun p => p.length = 0 :=
  checksLength_zero (fun _ t hm => by rw [restartRequest_ok t hm]; nofun) fun _ t => restartRequest_length t

theorem mapReadRequest_checksLength : ChecksLength mapReadRequest fun p => p.length = 0 := by
  refine checksLength_zero (fun m t hm => ?_) (fun m t hm => ?_) <;> unfold mapReadRequest
  · rw [hm]
    nofun
  · obtain ⟨b, bs, h⟩ := List.exists_cons_of_ne_nil hm
    rw [h]

theorem groupStatusRequest_checksLength : ChecksLength groupStatusRequest fun p => p.length = 0 :=
  checksLength_zero (fun _ t hm => by rw [groupStatusRequest_ok t hm]; nofun) fun _ t => groupStatusRequest_length t

theorem poolStatusRequest_checksLength : ChecksLength poolStatusRequest fun p => p.length = 0 :=
  checksLength_zero (fun _ t hm => by rw [poolStatusRequest_ok t hm]; nofun) fun _ t => poolStatusRequest_length t

theorem conditionsReadRequest_checksLength : ChecksLength conditionsReadRequest fun p => p.length = 0 :=
  checksLength_zero (fun _ _ hm => by rw [conditionsReadRequest_ok hm]; nofun)
    fun _ _ hm => conditionsReadRequest_badLength hm

theorem setFramingRequest_checksLength : ChecksLength setFramingRequest fun p => p.length = 2 := by
  refine fun m t => ⟨setFramingRequest_length t, fun h => ?_⟩
  obtain ⟨hi, lo, hm⟩ := List.length_eq_two.mp h
  rcases Nat.lt_or_ge (hi ++ lo).toNat 64 with hlow | hok
  · rw [setFramingRequest_low t hm hlow]
    nofun
  · rw [setFramingRequest_ok t hm hok]
    nofun

theorem setPortRequest_checksLength : ChecksLength setPortRequest fun p => p.length = 4 := by
  intro m t
  unfold setPortRequest
  split
  case h_1 p x n v hm =>
    refine .of_allowed (by rw [hm]; rfl) ?_
    split
    · split <;> nofun
    · nofun
  case h_2 hm => exact .of_not fun h => match m.payload, h, hm with | [p, x, n, v], _, hm => hm p x n v rfl

theorem portStatusRequest_checksLength : ChecksLength portStatusRequest fun p => p.length = 2 := by
  intro m t
  unfold portStatusRequest
  split
  case h_1 p c hm =>
    refine .of_allowed (by rw [hm]; rfl) ?_
    split <;> nofun
  case h_2 hm => exact .of_not fun h => match m.payload, h, hm with | [p, c], _, hm => hm p c rfl

theorem connectRequest_checksLength : ChecksLength connectRequest fun p => p.length = 10 := by
  intro m t
  unfold connectRequest
  split
  case h_1 hm =>
    refine .of_allowed (by rw [hm]; rfl) ?_
    split
    · split <;> nofun
    · nofun
  case h_2 hm =>
    exact .of_not fun h => match m.payload, h, hm with
      | [e, b0, b1, b2, b3, b4, b5, dh, dl, n], _, hm => hm e b0 b1 b2 b3 b4 b5 dh dl n rfl

theorem guardControlRequest_checksLength : ChecksLength guardControlRequest fun p => p.length = 2 := by
  intro m t
  unfold guardControlRequest
  split
  case h_1 e c hm =>
    refine .of_allowed (by rw [hm]; rfl) ?_
    split
    · split
      · split <;> nofun
      · nofun
    · nofun
  case h_2 hm => exact .of_not fun h => match m.payload, h, hm with | [e, c], _, hm => hm e c rfl

theorem groupConfigRequest_checksLength : ChecksLength groupConfigRequest fun p => p.length = 1 := by
  intro m t
  unfold groupConfigRequest
  split
  case h_1 b hm =>
    refine .of_allowed (by rw [hm]; rfl) ?_
    split
    · nofun
    · split
      · nofun
      · split <;> nofun
  case h_2 hm => exact .of_not fun h => match m.payload, h, hm with | [b], _, hm => hm b rfl

theorem patternConfigRequest_checksLength : ChecksLength patternConfigRequest fun p => p.length = 5 := by
  intro m t
  unfold patternConfigRequest
  split
  case h_1 hm =>
    refine .of_allowed (by rw [hm]; rfl) ?_
    dsimp only
    split
    · split <;> nofun
    · nofun
  case h_2 hm =>
    exact .of_not fun h => match m.payload, h, hm with | [e, lh, ll, gh, gl], _, hm => hm e lh ll gh gl rfl

theorem injectAbortRequest_checksLength : ChecksLength injectAbortRequest fun p => p.length = 1 := by
  intro m t
  unfold injectAbortRequest
  split
  case h_1 k hm =>
    refine .of_allowed (by rw [hm]; rfl) ?_
    split
    · nofun
    · split <;> nofun
  case h_2 hm => exact .of_not fun h => match m.payload, h, hm with | [k], _, hm => hm k rfl

/-! ### Requests that name one plan (R75, R91, R92, R94, R95) -/

theorem planRequest_checksLength {act : SlotId → Plan → State → Answer × State}
    (hact : ∀ k p t, (act k p t).1.status ≠ .badLength) : ChecksLength (planRequest act) fun p => p.length = 1 := by
  intro m t
  unfold planRequest
  split
  case h_1 id hm =>
    refine .of_allowed (by rw [hm]; rfl) ?_
    split
    · nofun
    · split
      · nofun
      · exact hact _ _ t
  case h_2 hm => exact .of_not fun h => match m.payload, h, hm with | [id], _, hm => hm id rfl

theorem State.armRefusal_status {t : State} {p : Plan} {a : Answer} (h : t.armRefusal p = some a) :
    a.status ≠ .badLength := by
  unfold State.armRefusal at h
  split_ifs at h
  · cases h
    nofun
  · cases h
    nofun
  · cases h
    nofun
  · split at h <;> cases h
    nofun

theorem armRequest_status (k : SlotId) (p : Plan) (t : State) : (armRequest k p t).1.status ≠ .badLength := by
  unfold armRequest
  split
  · exact State.armRefusal_status ‹_›
  · nofun

theorem fireRequest_status (k : SlotId) (p : Plan) (t : State) : (fireRequest k p t).1.status ≠ .badLength := by
  unfold fireRequest
  split
  · nofun
  · split <;> nofun

theorem cancelRequest_status (first : Bool) (k : SlotId) (p : Plan) (t : State) :
    (cancelRequest first k p t).1.status ≠ .badLength := by
  unfold cancelRequest
  cases p.state <;> nofun

theorem releaseRequest_status (k : SlotId) (p : Plan) (t : State) :
    (releaseRequest k p t).1.status ≠ .badLength := by
  unfold releaseRequest
  cases p.state <;> nofun

theorem planReadRequest_checksLength : ChecksLength planReadRequest fun p => p.length = 1 := by
  intro m t
  unfold planReadRequest
  split
  case h_1 id hm =>
    refine .of_allowed (by rw [hm]; rfl) ?_
    split
    · nofun
    · split <;> nofun
  case h_2 hm => exact .of_not fun h => match m.payload, h, hm with | [id], _, hm => hm id rfl

/-! ### Requests with a fragment (R128, R129) -/

theorem State.injectStart_status (t : State) (e : Port) (total : Nat) (notify : Bool) (fragment : List Byte) :
    (t.injectStart e total notify fragment).1.status ≠ .badLength := by
  unfold State.injectStart
  dsimp only
  split
  · nofun
  · split
    · nofun
    · split
      · nofun
      · split <;> nofun

theorem State.injectStore_status (t : State) (k : ContextId) (c : Context) (fragment : List Byte) :
    (t.injectStore k c fragment).1.status ≠ .badLength := by
  unfold State.injectStore
  dsimp only
  split <;> nofun

theorem injectStartRequest_checksLength :
    ChecksLength injectStartRequest fun p => 5 ≤ p.length ∧ p.length ≤ 244 := by
  intro m t
  unfold injectStartRequest
  split
  case h_1 b lh ll n fragment hm =>
    refine .of_ite (by rw [fragmentFits_iff, hm]; simp only [List.length_cons]; omega) ?_
    dsimp only
    split
    · split
      · nofun
      · exact t.injectStart_status _ _ _ _
    · nofun
  case h_2 hm =>
    exact .of_not fun ⟨h, _⟩ => match m.payload, h, hm with
      | b :: lh :: ll :: n :: fragment, _, hm => hm b lh ll n fragment rfl

theorem injectContRequest_checksLength :
    ChecksLength injectContRequest fun p => 4 ≤ p.length ∧ p.length ≤ 243 := by
  intro m t
  unfold injectContRequest
  split
  case h_1 b oh ol fragment hm =>
    refine .of_ite (by rw [fragmentFits_iff, hm]; simp only [List.length_cons]; omega) ?_
    split
    · nofun
    · split
      · nofun
      · split
        · nofun
        · exact t.injectStore_status _ _ _
  case h_2 hm =>
    exact .of_not fun ⟨h, _⟩ => match m.payload, h, hm with
      | b :: oh :: ol :: fragment, _, hm => hm b oh ol fragment rfl

/-! ### Requests whose length follows from a count (R177) -/

/-- The count stands at place `i` of the payload, and fits its length. -/
def CountFits (i : Nat) (fits : Nat → Nat → Prop) (p : List Byte) : Prop :=
  ∃ count : Byte, p[i]? = some count ∧ fits count.toNat p.length

theorem CountFits.lt_length {i : Nat} {fits : Nat → Nat → Prop} {p : List Byte} (h : CountFits i fits p) :
    i < p.length := by
  obtain ⟨count, hcount, -⟩ := h
  exact (List.getElem?_eq_some_iff.mp hcount).1

theorem countFits_iff {i : Nat} {fits : Nat → Nat → Prop} {p : List Byte} {count : Byte} (h : p[i]? = some count) :
    CountFits i fits p ↔ fits count.toNat p.length := by
  unfold CountFits
  rw [h]
  simp

theorem idListFits_iff (count : Byte) (ids : List Byte) :
    idListFits count ids = true ↔ count.toNat ≤ 40 ∧ ids.length = count.toNat := by
  unfold idListFits
  rw [Bool.and_eq_true, decide_eq_true_eq, decide_eq_true_eq]

theorem conditionsClearRequest_checksLength :
    ChecksLength conditionsClearRequest (CountFits 1 fun c n => c ≤ 40 ∧ n = 2 + c) := by
  intro m t
  unfold conditionsClearRequest
  split
  case h_1 scope count ids hm =>
    refine .of_ite ?_ ?_
    · rw [idListFits_iff, countFits_iff (by rw [hm]; rfl), hm]
      simp only [List.length_cons]
      omega
    · split <;> nofun
  case h_2 hm =>
    exact .of_not fun h => match m.payload, h.lt_length, hm with
      | scope :: count :: ids, _, hm => hm scope count ids rfl

theorem subscribeRequest_checksLength :
    ChecksLength subscribeRequest (CountFits 0 fun c n => c ≤ 40 ∧ n = 1 + c) := by
  intro m t
  unfold subscribeRequest
  split
  case h_1 count ids hm =>
    refine .of_ite ?_ ?_
    · rw [idListFits_iff, countFits_iff (by rw [hm]; rfl), hm]
      simp only [List.length_cons]
      omega
    · split <;> nofun
  case h_2 hm => exact .of_not fun h => absurd h.lt_length (by rw [hm]; exact Nat.lt_irrefl 0)

theorem State.loadPlan_status (t : State) (p : Plan) : (t.loadPlan p).1.status ≠ .badLength := by
  unfold State.loadPlan
  split
  · nofun
  · split
    · nofun
    · split <;> nofun

theorem planLoadRequest_checksLength :
    ChecksLength planLoadRequest (CountFits 10 fun c n => n = 11 + 7 * c) := by
  intro m t
  unfold planLoadRequest
  split
  case h_1 id kind index ah al gh gl dh dl n count edits hm =>
    have agrees : CountFits 10 (fun c n => n = 11 + 7 * c) m.payload ↔ edits.length = 7 * count.toNat := by
      rw [countFits_iff (by rw [hm]; rfl), hm]
      simp only [List.length_cons]
      omega
    rw [ite_not]
    refine .of_ite agrees.symm ?_
    split
    · nofun
    · exact t.loadPlan_status _
  case h_2 hm =>
    exact .of_not fun h => match m.payload, h.lt_length, hm with
      | id :: kind :: index :: ah :: al :: gh :: gl :: dh :: dl :: n :: count :: edits, _, hm =>
        hm id kind index ah al gh gl dh dl n count edits rfl

/-- A PLAN_LOAD of an allowed length with no edit, or with more than 16 (R72, R177). -/
theorem planLoadRequest_badCount {m : Message} (t : State) {count : Byte}
    (hlen : CountFits 10 (fun c n => n = 11 + 7 * c) m.payload) (hcount : m.payload[10]? = some count)
    (hbad : count = 0 ∨ 16 < count.toNat) : planLoadRequest m t = (Answer.refuse .badField, t) := by
  obtain ⟨id, kind, index, ah, al, gh, gl, dh, dl, n, c, edits, hm⟩ :
      ∃ id kind index ah al gh gl dh dl n c edits,
        m.payload = id :: kind :: index :: ah :: al :: gh :: gl :: dh :: dl :: n :: c :: edits :=
    match m.payload, hlen.lt_length with
    | _ :: _ :: _ :: _ :: _ :: _ :: _ :: _ :: _ :: _ :: _ :: _, _ => ⟨_, _, _, _, _, _, _, _, _, _, _, _, rfl⟩
  have hc : c = count := by simpa [hm] using hcount
  subst hc
  have hedits := (countFits_iff hcount).mp hlen
  rw [hm] at hedits
  simp only [List.length_cons] at hedits
  refine planLoadRequest_fields t hm (by omega) (Option.eq_none_iff_forall_ne_some.mpr fun p hp => ?_)
  have hpos := ((readPlan_some ..).mp hp).count_pos
  have hle := ((readPlan_some ..).mp hp).count_le
  rcases hbad with rfl | hbad
  · exact absurd hpos (by decide)
  · omega

/-! ### The table of R177 -/

theorem lengthAllowed_planLoad (p : List Byte) :
    lengthAllowed 0x30 p = true ↔ CountFits 10 (fun c n => n = 11 + 7 * c) p := by
  show (match p[10]? with | none => false | some count => decide (p.length = 11 + 7 * count.toNat)) = true ↔ _
  unfold CountFits
  cases p[10]? <;> simp

theorem lengthAllowed_conditionsClear (p : List Byte) :
    lengthAllowed 0x71 p = true ↔ CountFits 1 (fun c n => c ≤ 40 ∧ n = 2 + c) p := by
  show (match p[1]? with
    | none => false
    | some count => decide (count.toNat ≤ 40) && decide (p.length = 2 + count.toNat)) = true ↔ _
  unfold CountFits
  cases p[1]? <;> simp

theorem lengthAllowed_subscribe (p : List Byte) :
    lengthAllowed 0x72 p = true ↔ CountFits 0 (fun c n => c ≤ 40 ∧ n = 1 + c) p := by
  show (match p[0]? with
    | none => false
    | some count => decide (count.toNat ≤ 40) && decide (p.length = 1 + count.toNat)) = true ↔ _
  unfold CountFits
  cases p[0]? <;> simp

/-- The row of a kind refuses BAD_LENGTH the lengths that the table does not allow it, and no other (R177). -/
def AnswersByLength (kind : Byte) (c : Instr) : Prop :=
  ∀ (s : State) (m : Message) (rest : List Message), s.CanTake m rest kind →
    (lengthAllowed kind m.payload = false →
      exec c s = .next ((s.taken rest).replied m (Answer.refuse .badLength)))
    ∧ (lengthAllowed kind m.payload = true →
      ∃ (a : Answer) (u : State), exec c s = .next (u.replied m a) ∧ a.status ≠ .badLength)

theorem ChecksLength.answers {body : Message → State → Answer × State} {allowed : List Byte → Prop} {kind : Byte}
    {c : Instr} (hbody : ChecksLength body allowed) (htable : ∀ p, lengthAllowed kind p = true ↔ allowed p)
    (hexec : ∀ s, exec c s = .next (s.execute (fun k => decide (k = kind)) body)) : AnswersByLength kind c := by
  intro s m rest hcan
  have decides := hbody m (s.taken rest)
  rw [hexec, s.execute_kind m rest kind body hcan]
  refine ⟨fun h => ?_, fun h => ⟨_, _, rfl, decides.carriesOut ((htable m.payload).mp h)⟩⟩
  rw [decides.refuses fun ha => Bool.false_ne_true (h.symm.trans ((htable m.payload).mpr ha))]

theorem requestCommand_answersByLength : ∀ kind ∈ requestKinds, AnswersByLength kind (requestCommand kind) := by
  have fixed {n m : Nat} : decide (n = m) = true ↔ n = m := decide_eq_true_iff
  have between {low n high : Nat} : (decide (low ≤ n) && decide (n ≤ high)) = true ↔ low ≤ n ∧ n ≤ high := by simp
  unfold requestKinds
  simp only [List.forall_mem_cons]
  exact ⟨echoRequest_checksLength.answers (fun _ => decide_eq_true_iff) fun _ => rfl,
    statusRequest_checksLength.answers (fun _ => fixed) fun _ => rfl,
    restartRequest_checksLength.answers (fun _ => fixed) fun _ => rfl,
    setFramingRequest_checksLength.answers (fun _ => fixed) fun _ => rfl,
    setPortRequest_checksLength.answers (fun _ => fixed) fun _ => rfl,
    portStatusRequest_checksLength.answers (fun _ => fixed) fun _ => rfl,
    connectRequest_checksLength.answers (fun _ => fixed) fun _ => rfl,
    mapReadRequest_checksLength.answers (fun _ => fixed) fun _ => rfl,
    guardControlRequest_checksLength.answers (fun _ => fixed) fun _ => rfl,
    planLoadRequest_checksLength.answers lengthAllowed_planLoad fun _ => rfl,
    (planRequest_checksLength armRequest_status).answers (fun _ => fixed) fun _ => rfl,
    (planRequest_checksLength fireRequest_status).answers (fun _ => fixed) fun _ => rfl,
    (planRequest_checksLength (cancelRequest_status false)).answers (fun _ => fixed) fun _ => rfl,
    planReadRequest_checksLength.answers (fun _ => fixed) fun _ => rfl,
    (planRequest_checksLength releaseRequest_status).answers (fun _ => fixed) fun _ => rfl,
    groupConfigRequest_checksLength.answers (fun _ => fixed) fun _ => rfl,
    groupStatusRequest_checksLength.answers (fun _ => fixed) fun _ => rfl,
    patternConfigRequest_checksLength.answers (fun _ => fixed) fun _ => rfl,
    injectStartRequest_checksLength.answers (fun _ => between) fun _ => rfl,
    injectContRequest_checksLength.answers (fun _ => between) fun _ => rfl,
    injectAbortRequest_checksLength.answers (fun _ => fixed) fun _ => rfl,
    poolStatusRequest_checksLength.answers (fun _ => fixed) fun _ => rfl,
    conditionsReadRequest_checksLength.answers (fun _ => fixed) fun _ => rfl,
    conditionsClearRequest_checksLength.answers lengthAllowed_conditionsClear fun _ => rfl,
    subscribeRequest_checksLength.answers lengthAllowed_subscribe fun _ => rfl,
    List.forall_mem_nil _⟩

theorem requestCommand_unknown {kind : Byte} (h : kind ∉ requestKinds) :
    requestCommand kind = .unknownRequestKind := by
  simp only [requestKinds, List.mem_cons, List.not_mem_nil, not_or] at h
  simp only [requestCommand, h, if_false]

/-- Settles O14: the table of R173 by evaluation, that of R177 row by row, and the edit counts of a PLAN_LOAD. -/
theorem wrongLengthsAreRefusedBadLength : Obligations.WrongLengthsAreRefusedBadLength := by
  refine ⟨rfl, fun _ => requestCommand_unknown, fun s m rest kind hcan hk => ?_⟩
  obtain ⟨refused, answered⟩ := requestCommand_answersByLength kind hk s m rest hcan
  refine ⟨refused, answered, ?_⟩
  rintro count rfl hlen hcount hbad
  rw [execPlanLoad_eq hcan, planLoadRequest_badCount _ ((lengthAllowed_planLoad _).mp hlen) hcount hbad]

end Sys2Proof.Machine
end

section
/-! What each operation leaves of the queue of commands (section 0.5): the operations of the control blocks by what they
can touch, and the others by their own branches. -/

namespace Sys2Proof.Machine

section
variable (s : State)

/-! ### Notices and the injection buffer -/

theorem State.notify_pending (b : NoticeBody) : (s.notify b).pending = s.pending := by
  obtain ⟨_, _, _, h⟩ := s.notify_touches b
  rw [h]

theorem State.occur_pending (c : CondId) : (s.occur c).pending = s.pending := by
  obtain ⟨_, _, _, h⟩ := s.occur_touches c
  rw [h]

theorem State.startFrame_pending (e : Port) : (s.startFrame e).pending = s.pending := by
  unfold State.startFrame
  dsimp only
  split <;> rfl

theorem State.endDrain_pending (e : Port) (c : Character) : (s.endDrain e c).pending = s.pending :=
  (s.endDrain_selector e c).guard.control.pending

theorem State.sendShut_pending (e : Port) : (s.sendShut e).pending = s.pending := by
  unfold State.sendShut
  split
  · exact s.endDrain_pending e .shut
  · exact (State.injectSent_selector _ e).guard.control.pending

/-! ### Ingresses and MARK events (R8, R81) -/

theorem State.putIngress_pending (p : Port) (g : Ingress) : (s.putIngress p g).pending = s.pending :=
  (s.putIngress_control p g).pending

theorem State.readTracker_pending (p : Port) : (s.readTracker p).pending = s.pending := by
  unfold State.readTracker
  dsimp only
  split
  · rfl
  · exact State.putIngress_pending _ p _
  · rfl

theorem State.takeMarks_pending : s.takeMarks.pending = s.pending :=
  State.inSomeOrder_keeps (fun t => t.pending = s.pending) s _ _ (fun _ _ ht => ht)
    (fun _ _ t ht => ((t.setPort _ _).fireWaiting_control _).pending.trans ht) rfl

theorem State.beforeRead_pending (p : Port) : (s.beforeRead p).pending = s.pending := by
  unfold State.beforeRead
  split
  · rfl
  · exact s.takeMarks_pending

theorem State.afterRead_pending : s.afterRead.pending = s.pending := by
  unfold State.afterRead
  split
  · exact s.takeMarks_pending
  · rfl

/-! ### The group interface and the sense inputs (R104, R105, R142) -/

theorem State.takeGroupFire_pending : s.takeGroupFire.pending = s.pending := s.takeGroupFire_control.pending

theorem State.groupHoldEnds_pending : s.groupHoldEnds.pending = s.pending := by
  unfold State.groupHoldEnds
  split
  · exact groupTo_pending s _
  · split
    · exact groupTo_pending s _
    · exact (s.groupEnter_control _).pending

theorem State.qualifySense_pending (n : SenseId) : (s.qualifySense n).pending = s.pending := by
  have latched := (s.setSense n { s.senses[n] with qualifier := .high }).occur_pending (senseCond n)
  unfold State.qualifySense
  dsimp only
  split
  · exact latched
  · exact (State.fireWaiting_control _ _).pending.trans latched

/-! ### The link (R157 to R162) -/

theorem State.messageReceived_pending (kind tag : Byte) (payload : List Byte) :
    (s.messageReceived kind tag payload).pending = s.pending := by
  unfold State.messageReceived State.takeIn State.refuseAtIntake
  split
  · split
    · rfl
    · exact State.occur_pending _ _
  · rfl

theorem State.messageDiscarded_pending : s.messageDiscarded.pending = s.pending := State.occur_pending _ _

theorem State.bodyReceived_pending (got : List Byte) : (s.bodyReceived got).pending = s.pending := by
  unfold State.bodyReceived
  split
  · exact s.messageReceived_pending _ _ _
  · rfl
  · rfl

theorem State.takeByte_pending (b : Byte) (err : Bool) : (s.takeByte b err).pending = s.pending := by
  unfold State.takeByte
  split
  · split <;> rfl
  · split
    · exact s.messageDiscarded_pending
    · split <;> rfl
  · split
    · exact s.messageDiscarded_pending
    · split <;> rfl
  · split
    · exact s.messageDiscarded_pending
    · rfl
  · split
    · exact s.messageDiscarded_pending
    · split
      · exact s.bodyReceived_pending _
      · exact s.messageDiscarded_pending

/-! ### Resets (R167 to R169) -/

theorem State.enterReset_pending (phase : Phase) (tep : Bool) : (s.enterReset phase tep).pending = s.pending :=
  groupTo_pending s .unset

theorem State.endReset_pending (cause : ResetCause) (straps : Straps) :
    (s.endReset cause straps).pending = s.pending := State.notify_pending _ _

end

section
variable (m : Message) (t : State)

/-! ### Requests of the connection map, the guards and the plans -/

theorem connectRequest_pending : (connectRequest m t).2.pending = t.pending := by
  unfold connectRequest
  split
  · split
    · split
      · rfl
      · exact (t.connect_control _ _ _ _ _).pending
    · rfl
  · rfl

theorem guardControlRequest_pending : (guardControlRequest m t).2.pending = t.pending := by
  unfold guardControlRequest
  split
  · split
    · split
      · split
        · rfl
        · exact (t.guardCommand_reach _ _ _ _).control.pending
      · rfl
    · rfl
  · rfl

theorem planRequest_pending {act : SlotId → Plan → State → Answer × State}
    (h : ∀ (k : SlotId) (p : Plan) (t : State), (act k p t).2.pending = t.pending) :
    (planRequest act m t).2.pending = t.pending := by
  unfold planRequest
  split
  · split
    · rfl
    · split
      · rfl
      · exact h _ _ t
  · rfl

theorem armRequest_pending (k : SlotId) (p : Plan) (t : State) : (armRequest k p t).2.pending = t.pending := by
  unfold armRequest
  split
  · rfl
  · exact (t.armPlan_control k p).pending

theorem fireRequest_pending (k : SlotId) (p : Plan) (t : State) : (fireRequest k p t).2.pending = t.pending := by
  unfold fireRequest
  split
  · rfl
  · split
    · rfl
    · exact (t.firePlan_control k none true).pending

theorem cancelRequest_pending (first : Bool) (k : SlotId) (p : Plan) (t : State) :
    (cancelRequest first k p t).2.pending = t.pending := by
  unfold cancelRequest
  dsimp only
  split
  case h_2 => exact (State.letGo_control _ p first).pending
  all_goals rfl

theorem releaseRequest_pending (k : SlotId) (p : Plan) (t : State) :
    (releaseRequest k p t).2.pending = t.pending := by
  unfold releaseRequest
  split <;> rfl

theorem planLoadRequest_pending : (planLoadRequest m t).2.pending = t.pending := by
  unfold planLoadRequest State.loadPlan
  repeat' split
  all_goals rfl

theorem planReadRequest_pending : (planReadRequest m t).2.pending = t.pending := by
  unfold planReadRequest
  repeat' split
  all_goals rfl

/-! ### Requests of the other blocks -/

theorem groupConfigRequest_pending : (groupConfigRequest m t).2.pending = t.pending := by
  unfold groupConfigRequest
  split
  · split
    · rfl
    · split
      · rfl
      · split
        · rfl
        · exact groupTo_pending t _
  · rfl

theorem restartRequest_pending : (restartRequest m t).2.pending = t.pending := by
  unfold restartRequest
  split <;> rfl

theorem setFramingRequest_pending : (setFramingRequest m t).2.pending = t.pending := by
  unfold setFramingRequest
  dsimp only
  repeat' split
  all_goals rfl

theorem setPortRequest_pending : (setPortRequest m t).2.pending = t.pending := by
  unfold setPortRequest
  repeat' split
  all_goals rfl

theorem portStatusRequest_pending : (portStatusRequest m t).2.pending = t.pending := by
  unfold portStatusRequest
  dsimp only
  repeat' split
  all_goals rfl

theorem patternConfigRequest_pending : (patternConfigRequest m t).2.pending = t.pending := by
  unfold patternConfigRequest
  dsimp only
  repeat' split
  all_goals rfl

theorem injectStartRequest_pending : (injectStartRequest m t).2.pending = t.pending := by
  unfold injectStartRequest State.injectStart
  dsimp only
  repeat' split
  all_goals rfl

theorem injectContRequest_pending : (injectContRequest m t).2.pending = t.pending := by
  unfold injectContRequest State.injectStore
  dsimp only
  repeat' split
  all_goals rfl

theorem injectAbortRequest_pending : (injectAbortRequest m t).2.pending = t.pending := by
  unfold injectAbortRequest
  repeat' split
  all_goals rfl

theorem conditionsClearRequest_pending : (conditionsClearRequest m t).2.pending = t.pending := by
  unfold conditionsClearRequest State.clearConds
  repeat' split
  all_goals rfl

theorem subscribeRequest_pending : (subscribeRequest m t).2.pending = t.pending := by
  unfold subscribeRequest State.subscribeTo
  repeat' split
  all_goals rfl

end

end Sys2Proof.Machine
end

section
/-! Every command answers a next state and leaves the queue behind it alone, and a step runs the front command
(section 0.5). -/

namespace Sys2Proof.Machine

/-- The outcome is a next state, with the queue of commands as it stands in `s`. -/
def State.KeepsQueue (s : State) (r : Result) : Prop := ∃ t : State, r = .next t ∧ t.pending = s.pending

section
variable (s : State)

/-! ### The frame of one event -/

theorem State.next_keepsQueue {s t : State} (h : t.pending = s.pending) : s.KeepsQueue (.next t) := ⟨t, rfl, h⟩

theorem State.event_pending (can : Bool) {effect : State → State} (h : (effect s).pending = s.pending) :
    (s.event can effect).pending = s.pending := by
  unfold State.event
  split
  · exact (State.arbitrate_pending _).trans h
  · rfl

theorem State.event_keepsQueue (can : Bool) {effect : State → State} (h : (effect s).pending = s.pending) :
    s.KeepsQueue (.next (s.event can effect)) := State.next_keepsQueue (s.event_pending can h)

/-- A request leaves the queue when its validation and execution do: its message and its reply stand in the link. -/
theorem State.execute_keepsQueue (accepts : Byte → Bool) {body : Message → State → Answer × State}
    (h : ∀ (m : Message) (t : State), (body m t).2.pending = t.pending) :
    s.KeepsQueue (.next (s.execute accepts body)) := by
  refine State.next_keepsQueue ?_
  unfold State.execute
  split
  · rfl
  · exact s.event_pending _ (h _ (s.taken _))

/-! ### The resets and the end of a message on MTX (R166 to R169) -/

theorem execHardwareResetEnd_keepsQueue (i : Inputs) : s.KeepsQueue (execHardwareResetEnd i s) := by
  unfold execHardwareResetEnd
  split
  · exact State.next_keepsQueue ((State.arbitrate_pending _).trans (State.endReset_pending _ _ _))
  · exact State.next_keepsQueue rfl
  · exact State.next_keepsQueue rfl

theorem execRestartEnd_keepsQueue (straps : Straps) : s.KeepsQueue (execRestartEnd straps s) := by
  unfold execRestartEnd
  split
  · exact State.next_keepsQueue ((State.arbitrate_pending _).trans (s.endReset_pending _ _))
  · exact State.next_keepsQueue rfl
  · exact State.next_keepsQueue rfl

theorem execSendComplete_keepsQueue : s.KeepsQueue (execSendComplete s) := by
  unfold execSendComplete
  split
  · split
    · exact State.next_keepsQueue (State.enterReset_pending _ _ _)
    · exact State.next_keepsQueue (State.arbitrate_pending _)
  · exact State.next_keepsQueue rfl

/-! ### Changes of an input pin (R1, R97, R142): an event while the part runs, and the level noted in a reset -/

theorem execSdDeassert_keepsQueue (p : Port) : s.KeepsQueue (execSdDeassert p s) := by
  unfold execSdDeassert
  split
  · exact s.event_keepsQueue _ rfl
  · exact State.next_keepsQueue rfl
  · exact State.next_keepsQueue rfl

theorem execSdAssert_keepsQueue (p : Port) : s.KeepsQueue (execSdAssert p s) := by
  unfold execSdAssert
  split
  · exact s.event_keepsQueue _ (s.putIngress_pending p _)
  · exact State.next_keepsQueue rfl
  · exact State.next_keepsQueue rfl

theorem execGrdyLevelChange_keepsQueue (high : Bool) : s.KeepsQueue (execGrdyLevelChange high s) := by
  unfold execGrdyLevelChange
  split
  · exact s.event_keepsQueue _ rfl
  · exact State.next_keepsQueue rfl
  · exact State.next_keepsQueue rfl

theorem execSenseRise_keepsQueue (n : SenseId) : s.KeepsQueue (execSenseRise n s) := by
  unfold execSenseRise
  split
  · exact s.event_keepsQueue _ rfl
  · exact State.next_keepsQueue rfl
  · exact State.next_keepsQueue rfl

theorem execSenseFall_keepsQueue (n : SenseId) : s.KeepsQueue (execSenseFall n s) := by
  unfold execSenseFall
  split
  · exact s.event_keepsQueue _ rfl
  · exact State.next_keepsQueue rfl
  · exact State.next_keepsQueue rfl

/-! ### Events that find what they are about in the state -/

theorem execTrackerRead_keepsQueue (p : Port) : s.KeepsQueue (execTrackerRead p s) :=
  s.event_keepsQueue _ <|
    calc ((s.beforeRead p).readTracker p).afterRead.pending
      _ = ((s.beforeRead p).readTracker p).pending := State.afterRead_pending _
      _ = (s.beforeRead p).pending := State.readTracker_pending _ p
      _ = s.pending := s.beforeRead_pending p

theorem execNoiseWindowEnd_keepsQueue (p : Port) : s.KeepsQueue (execNoiseWindowEnd p s) := by
  refine s.event_keepsQueue _ ?_
  split
  · rfl
  · exact s.putIngress_pending p _

theorem execDrainEnd_keepsQueue (e : Port) : s.KeepsQueue (execDrainEnd e s) := by
  refine s.event_keepsQueue _ ?_
  split
  · rfl
  · exact s.endDrain_pending e _

theorem execEditSettle_keepsQueue (e : Port) : s.KeepsQueue (execEditSettle e s) := by
  refine s.event_keepsQueue _ ?_
  split
  · rfl
  · exact (s.takeEditSettle_control e _).pending

theorem execArmExpiry_keepsQueue (k : SlotId) : s.KeepsQueue (execArmExpiry k s) := by
  refine s.event_keepsQueue _ ?_
  split
  · rfl
  · exact (s.expirePlan_control k _ _ _).pending

theorem execGroupWaitExpiry_keepsQueue (k : SlotId) (first : Bool) : s.KeepsQueue (execGroupWaitExpiry k first s) := by
  refine s.event_keepsQueue _ ?_
  split
  · rfl
  · exact (s.expirePlan_control k _ _ first).pending

theorem execHoldOffExpiry_keepsQueue (e : Port) : s.KeepsQueue (execHoldOffExpiry e s) := by
  refine s.event_keepsQueue _ ?_
  split
  · rfl
  · exact (s.holdOffExpired_reach e _).control.pending

theorem execAssemblyTimeout_keepsQueue (k : ContextId) : s.KeepsQueue (execAssemblyTimeout k s) := by
  refine s.event_keepsQueue _ ?_
  split
  · rfl
  · exact State.notify_pending _ _

/-! ### Every command -/

/-- Every command answers next and leaves the queue: a request by its body, an event by its effect, and a reset by
writing the blocks alone. -/
theorem exec_keepsQueue (c : Instr) : s.KeepsQueue (exec c s) := by
  cases c
  case hardwareReset => exact State.next_keepsQueue (s.enterReset_pending _ _)
  case hardwareResetEnd i => exact execHardwareResetEnd_keepsQueue s i
  case restartEnd straps => exact execRestartEnd_keepsQueue s straps
  case sendComplete => exact execSendComplete_keepsQueue s
  case requestArrival => exact s.event_keepsQueue _ (s.messageReceived_pending _ _ _)
  case checkFailure => exact s.event_keepsQueue _ s.messageDiscarded_pending
  case lenOutOfRange => exact s.event_keepsQueue _ rfl
  case gapTimerExpiry => exact s.event_keepsQueue _ (State.occur_pending _ _)
  case byteReceived => exact s.event_keepsQueue _ (s.takeByte_pending _ _)
  case unknownRequestKind => exact s.execute_keepsQueue _ fun _ _ => rfl
  case echo => exact s.execute_keepsQueue _ fun m t => by unfold echoRequest; split <;> rfl
  case status => exact s.execute_keepsQueue _ fun m t => by unfold statusRequest; split <;> rfl
  case restart => exact s.execute_keepsQueue _ restartRequest_pending
  case setFraming => exact s.execute_keepsQueue _ setFramingRequest_pending
  case setPort => exact s.execute_keepsQueue _ setPortRequest_pending
  case portStatus => exact s.execute_keepsQueue _ portStatusRequest_pending
  case connect => exact s.execute_keepsQueue _ connectRequest_pending
  case mapRead => exact s.execute_keepsQueue _ fun m t => by unfold mapReadRequest; split <;> rfl
  case guardControl => exact s.execute_keepsQueue _ guardControlRequest_pending
  case planLoad => exact s.execute_keepsQueue _ planLoadRequest_pending
  case planArm => exact s.execute_keepsQueue _ fun m t => planRequest_pending m t armRequest_pending
  case planFire => exact s.execute_keepsQueue _ fun m t => planRequest_pending m t fireRequest_pending
  case planCancel first => exact s.execute_keepsQueue _ fun m t => planRequest_pending m t (cancelRequest_pending first)
  case planRead => exact s.execute_keepsQueue _ planReadRequest_pending
  case planRelease => exact s.execute_keepsQueue _ fun m t => planRequest_pending m t releaseRequest_pending
  case groupConfig => exact s.execute_keepsQueue _ groupConfigRequest_pending
  case groupStatus => exact s.execute_keepsQueue _ fun m t => by unfold groupStatusRequest; split <;> rfl
  case patternConfig => exact s.execute_keepsQueue _ patternConfigRequest_pending
  case injectStart => exact s.execute_keepsQueue _ injectStartRequest_pending
  case injectCont => exact s.execute_keepsQueue _ injectContRequest_pending
  case injectAbort => exact s.execute_keepsQueue _ injectAbortRequest_pending
  case poolStatus => exact s.execute_keepsQueue _ fun m t => by unfold poolStatusRequest; split <;> rfl
  case conditionsRead => exact s.execute_keepsQueue _ fun m t => by unfold conditionsReadRequest; split <;> rfl
  case conditionsClear => exact s.execute_keepsQueue _ conditionsClearRequest_pending
  case subscribe => exact s.execute_keepsQueue _ subscribeRequest_pending
  case sdDeassert p => exact execSdDeassert_keepsQueue s p
  case sdAssert p => exact execSdAssert_keepsQueue s p
  case sdLossTimerExpiry p => exact s.event_keepsQueue _ (s.putIngress_pending p _)
  case characterReceived p _ _ => exact s.event_keepsQueue _ (s.putIngress_pending p _)
  case trackerRead p => exact execTrackerRead_keepsQueue s p
  case noiseWindowEnd p => exact execNoiseWindowEnd_keepsQueue s p
  case trafficTimerExpiry p => exact s.event_keepsQueue _ (s.putIngress_pending p _)
  case drainEnd e => exact execDrainEnd_keepsQueue s e
  case deadlineExpiry e => exact s.event_keepsQueue _ (s.expireDeadline_selector e).guard.control.pending
  case joinComplete e => exact s.event_keepsQueue _ (s.tryJoin_selector e).guard.control.pending
  case editSettle e => exact execEditSettle_keepsQueue s e
  case armExpiry k => exact execArmExpiry_keepsQueue s k
  case groupWaitExpiry k first => exact execGroupWaitExpiry_keepsQueue s k first
  case holdOffExpiry e => exact execHoldOffExpiry_keepsQueue s e
  case waitToRestoreExpiry e => exact s.event_keepsQueue _ (s.guardSwitch_reach e _ _ _).control.pending
  case grdyLevelChange high => exact execGrdyLevelChange_keepsQueue s high
  case qualificationComplete => exact s.event_keepsQueue _ (State.takeGroupFire_pending _)
  case holdExpiry => exact s.event_keepsQueue _ s.groupHoldEnds_pending
  case faultTimerExpiry => exact s.event_keepsQueue _ (State.occur_pending _ _)
  case patternFrameStart => exact s.event_keepsQueue _ rfl
  case injectFrameStart e => exact s.event_keepsQueue _ (s.startFrame_pending e)
  case injectFrameSent e => exact s.event_keepsQueue _ (s.sendShut_pending e)
  case assemblyTimeout k => exact execAssemblyTimeout_keepsQueue s k
  case senseRise n => exact execSenseRise_keepsQueue s n
  case senseFall n => exact execSenseFall_keepsQueue s n
  case senseQualified n => exact s.event_keepsQueue _ (s.qualifySense_pending n)

end

/-- Settles O2: each of the 61 commands, by what its meaning leaves of the queue. -/
theorem everyCommandAnswersNextAndKeepsTheQueue : Obligations.EveryCommandAnswersNextAndKeepsTheQueue :=
  fun c s => exec_keepsQueue s c

/-- Settles O1: the step on a queue that is not empty, by its definition. -/
theorem stepRunsTheFrontCommand : Obligations.StepRunsTheFrontCommand := fun _ _ => rfl

end Sys2Proof.Machine
end

section
/-! GUARD_CONTROL and the switches of a guard (R53, R62 to R65). -/

namespace Sys2Proof.Machine

section
variable {s : State} {e : Port} {r : Guard} {f : GuardFields}

/-! ### A guard's switch (R53) -/

/-- A guard's switch gives the guard, the condition unit, the injection buffer and the selector something to do. -/
theorem State.guardParts_switch (hr : s.guards[e] = some r) (hf : s.egresses[e].entry.guard = some f)
    (sel : Selection) (next : GuardState) :
    s.guardParts e (.switch sel next)
      = [[(State.guardTo · e next), (State.occur · (guardCond e))],
          s.egresses[e].injectionPart e (s.switchChange e r f sel),
          s.egresses[e].selectorPart e (s.switchChange e r f sel)] := by
  unfold State.guardParts
  rw [hr, hf]

theorem State.guardParts_to (hr : s.guards[e] = some r) (hf : s.egresses[e].entry.guard = some f)
    (next : GuardState) : s.guardParts e (.to next) = [[(State.guardTo · e next)]] := by
  unfold State.guardParts
  rw [hr, hf]

/-- A host switch latches no condition (R53). -/
theorem State.hostSwitch_eq (hr : s.guards[e] = some r) (hf : s.egresses[e].entry.guard = some f)
    (sel : Selection) (next : GuardState) :
    s.hostSwitch e sel next
      = (s.setGuard e (some { r with state := next })).takeChange e (s.switchChange e r f sel) := by
  unfold State.hostSwitch
  rw [hr, hf]
  dsimp only
  rw [s.guardTo_some e r next hr]

end

/-- Settles O36: each move of a guard by the blocks that it gives something to do. -/
theorem guardSwitchHandsOverAChange : Obligations.GuardSwitchHandsOverAChange := by
  intro s e sel next r f hr hf en g ch
  have hch : s.switchChange e r f sel = ch := by cases sel <;> rfl
  refine ⟨?_, rfl, ?_, State.guardParts_to hr hf next, s.guardParts_stay e, fun m => s.together_order _,
    s.guardMoves_to e next r f hr hf, s.guardMoves_stay e, s.guardTo_some e r next hr, rfl⟩
  · rw [← hch]
    exact State.hostSwitch_eq hr hf sel next
  · rw [State.guardParts_switch hr hf, hch]

/-! ### The request (R62) -/

section
variable {s : State} {m : Message} {rest : List Message} {e c : Byte} {p : Port} {r : Guard} {f : GuardFields}

theorem GuardCommand.read_above (h : 3 ≤ c.toNat) : GuardCommand.read c = none := by
  revert c; decide

/-- The three commands and their bytes (R62). -/
theorem GuardCommand.read_below (h : c.toNat < 3) : ∃ cmd, GuardCommand.read c = some cmd
    ∧ (c = 0 → cmd = .lock) ∧ (c = 1 → cmd = .forceStandby) ∧ (c = 2 → cmd = .clear) := by
  revert c; decide

theorem execGuardControl_eq (h : s.CanTake m rest 0x22) : exec .guardControl s
    = .next ((guardControlRequest m (s.taken rest)).2.replied m (guardControlRequest m (s.taken rest)).1) :=
  congrArg Host.Outcome.next (s.execute_kind m rest 0x22 guardControlRequest h)

theorem guardControlRequest_unread (t : State) (hm : m.payload = [e, c]) (h : 16 ≤ e.toNat ∨ 3 ≤ c.toNat) :
    guardControlRequest m t = (Answer.refuse .badField, t) := by
  unfold guardControlRequest
  rw [hm]
  dsimp only
  rcases h with h | h
  · rw [readBelow_above 16 e h]
  · rw [GuardCommand.read_above h]
    cases readBelow 16 e <;> rfl

theorem guardControlRequest_unguarded (t : State) (hm : m.payload = [natByte p.val, c])
    (hf : t.egresses[p].entry.guard = none) : guardControlRequest m t = (Answer.refuse .badField, t) := by
  unfold guardControlRequest
  rw [hm]
  dsimp only
  rw [readBelow_port]
  cases GuardCommand.read c with
  | none => rfl
  | some cmd =>
    dsimp only
    rw [hf]
    cases t.guards[p] <;> rfl

/-- A command for a guard that is there is carried out, unless its egress is claimed (R62). -/
theorem guardControlRequest_guarded (t : State) {cmd : GuardCommand} (hm : m.payload = [natByte p.val, c])
    (hc : GuardCommand.read c = some cmd) (hr : t.guards[p] = some r) (hf : t.egresses[p].entry.guard = some f) :
    guardControlRequest m t
      = if t.claims[p].isSome then (Answer.refuse .egressClaimed, t)
        else (Answer.ok ((t.guardCommand p r f cmd).guardReport p), t.guardCommand p r f cmd) := by
  unfold guardControlRequest
  rw [hm]
  dsimp only
  rw [readBelow_port, hc]
  dsimp only
  rw [hr, hf]

/-! ### The three commands (R63 to R65) -/

theorem State.guardLock_locked (h : r.state = .locked) : s.guardLock p r = s := if_pos h

theorem State.guardLock_standby (h : r.state.selection = some .standby) :
    s.guardLock p r = s.guardSwitch p .primary false .locked := by
  unfold State.guardLock
  rw [if_neg (fun hl => by rw [hl] at h; cases h), if_pos h]

theorem State.guardLock_primary (h : r.state.selection = some .primary) (hl : r.state ≠ .locked) :
    s.guardLock p r = s.guardTo p .locked := by
  unfold State.guardLock
  rw [if_neg hl, h, if_neg nofun]

theorem State.guardForce_forced (h : r.state = .forced) : s.guardForce p r = s := if_pos h

theorem State.guardForce_primary (h : r.state.selection = some .primary) :
    s.guardForce p r = s.guardSwitch p .standby false .forced := by
  unfold State.guardForce
  rw [if_neg (fun hl => by rw [hl] at h; cases h), if_pos h]

theorem State.guardForce_standby (h : r.state.selection = some .standby) (hl : r.state ≠ .forced) :
    s.guardForce p r = s.guardTo p .forced := by
  unfold State.guardForce
  rw [if_neg hl, h, if_neg nofun]

theorem State.guardClear_locked (h : r.state = .locked) : s.guardClear p r f = s.guardMoves p (s.startMove p f) :=
  if_pos h

theorem State.guardClear_forced (h : r.state = .forced) : s.guardClear p r f = s.standbyEvaluation p f := by
  unfold State.guardClear
  rw [h, if_neg nofun, if_pos rfl]

theorem State.guardClear_automatic (hl : r.state ≠ .locked) (hf : r.state ≠ .forced) : s.guardClear p r f = s := by
  unfold State.guardClear
  rw [if_neg hl, if_neg hf]

/-! ### Into automatic operation on the primary (R65, R67) -/

theorem State.startMove_well (h : s.primaryWell p f = true) : s.startMove p f = .to .watching := if_pos h

theorem State.startMove_unwell (h : s.primaryWell p f = false) : s.startMove p f = s.failMove f :=
  if_neg (Bool.eq_false_iff.mp h)

theorem State.startMove_later (h : s.primaryWell p f = false) (h0 : f.holdOff ≠ 0) :
    s.startMove p f = .to (.holdoff (f.holdOff * 1000000)) :=
  (State.startMove_unwell h).trans (State.failMove_later h0)

/-- A hold-off of 0 expires at once (R55, R65). -/
theorem State.startMove_now (h : s.primaryWell p f = false) (h0 : f.holdOff = 0) :
    s.startMove p f = s.holdOffMove f :=
  (State.startMove_unwell h).trans (State.failMove_now h0)

end

/-- The guard condition and the selection, in the codes of R176. -/
theorem State.guardReport_some {s : State} {p : Port} {g : Guard} (h : s.guards[p] = some g) :
    s.guardReport p = [g.state.code, match g.state.selection with
      | some .primary => 0
      | some .standby => 1
      | none => 0xFF] := by
  unfold State.guardReport
  rw [h]
  dsimp only
  cases g.state.selection with
  | none => rfl
  | some sel => cases sel <;> rfl

/-- Settles O35: the refusals in their order, then each command by the state of the guard. -/
theorem guardControlAppliesOverrides : Obligations.GuardControlAppliesOverrides := by
  intro s m rest e c hcan hm
  refine ⟨fun h => by rw [execGuardControl_eq hcan, guardControlRequest_unread _ hm h], fun p he hc => ?_⟩
  rw [he] at hm
  obtain ⟨cmd, hread, hlock, hforce, hclear⟩ := GuardCommand.read_below hc
  refine ⟨fun hf => by rw [execGuardControl_eq hcan, guardControlRequest_unguarded (s.taken rest) hm hf],
    fun r f hr hf => ?_⟩
  have done := execGuardControl_eq hcan
  rw [guardControlRequest_guarded (s.taken rest) hm hread hr hf] at done
  rw [show (s.taken rest).claims = s.claims from rfl] at done
  refine ⟨fun hclaim => ?_, fun hclaim => ?_⟩
  · rw [done, if_pos hclaim]
  · intro t ends
    have carried {u : State} (h : t.guardCommand p r f cmd = u) : ends u := by
      show exec .guardControl s = _
      rw [done, if_neg (by rw [hclaim]; nofun), h]
    have moves (next : GuardState) : t.guardMoves p (.to next) = t.guardTo p next := t.guardMoves_to p next r f hr hf
    refine ⟨fun h hsel => carried ?_, fun h hsel hne => carried ?_, fun h hs => carried ?_, fun h hsel => carried ?_,
      fun h hsel hne => carried ?_, fun h hs => carried ?_, fun h hs hw => carried ?_, fun h hs hw h0 => carried ?_,
      fun h hs hw h0 => ⟨fun hsw => carried ?_, fun hsw => carried ?_⟩, fun h hs => carried ?_,
      fun h hl hf => carried ?_, fun u g hg => ⟨State.guardReport_some hg, fun n => rfl⟩⟩
    · rw [hlock h]; exact State.guardLock_standby hsel
    · rw [hlock h]; exact State.guardLock_primary hsel hne
    · rw [hlock h]; exact State.guardLock_locked hs
    · rw [hforce h]; exact State.guardForce_primary hsel
    · rw [hforce h]; exact State.guardForce_standby hsel hne
    · rw [hforce h]; exact State.guardForce_forced hs
    · rw [hclear h]; exact (State.guardClear_locked hs).trans (by rw [State.startMove_well hw, moves])
    · rw [hclear h]; exact (State.guardClear_locked hs).trans (by rw [State.startMove_later hw h0, moves])
    · rw [hclear h]
      exact (State.guardClear_locked hs).trans (by rw [State.startMove_now hw h0, State.holdOffMove_well hsw]; rfl)
    · rw [hclear h]
      exact (State.guardClear_locked hs).trans (by rw [State.startMove_now hw h0, State.holdOffMove_unwell hsw, moves])
    · rw [hclear h]; exact State.guardClear_forced hs
    · rw [hclear h]; exact State.guardClear_automatic hl hf

end Sys2Proof.Machine
end

section
/-! EDIT_SETTLE (R55, R68, R88, R89). -/

namespace Sys2Proof.Machine

section
variable {s t : State} {e : Port} {r : Guard} {f : GuardFields}

/-! ### The guard as its plan's edit settles (R55, R68) -/

theorem State.primaryWell_congr (hports : t.ports = s.ports) (hentry : t.egresses[e].entry = s.egresses[e].entry) :
    t.primaryWell e f = s.primaryWell e f := by
  unfold State.primaryWell
  rw [hports, hentry]

/-- Initialisation: WATCHING or HOLDOFF by the primary's grade, and no last switch (R55). -/
theorem State.guardInit_some (hr : s.guards[e] = some r) (hf : s.egresses[e].entry.guard = some f) :
    s.guardInit e = s.setGuard e (some
      { ident := r.ident, state := if s.primaryWell e f then .watching else .holdoff (f.holdOff * 1000000)
        last := none }) := by
  unfold State.guardInit State.guardStart
  rw [hr, hf]
  dsimp only
  rw [State.guardTo_some _ e _ _ (setGuard_same s e _), setGuard_setGuard, f.holdOffCt_eq]
  rfl

theorem State.holdOffIfZero_expires (hr : s.guards[e] = some r) (hf : s.egresses[e].entry.guard = some f)
    (h : r.state = .holdoff 0) : s.holdOffIfZero e = s.holdOffExpired e f := by
  unfold State.holdOffIfZero
  rw [hr, hf]
  exact if_pos h

theorem State.holdOffIfZero_stays (hr : s.guards[e] = some r) (h : r.state ≠ .holdoff 0) :
    s.holdOffIfZero e = s := by
  unfold State.holdOffIfZero
  rw [hr]
  split
  · rename_i q _ hq _
    cases hq
    exact if_neg h
  · rfl

/-- The expiry of a hold-off is an automatic switch to a well standby, or PRIMARY_DOWN (R57). -/
theorem State.holdOffExpired_eq (hr : s.guards[e] = some r) (hf : s.egresses[e].entry.guard = some f) :
    s.holdOffExpired e f
      = if s.standbyWell f then s.guardSwitch e .standby true .onStandby else s.guardTo e .primaryDown := by
  unfold State.holdOffExpired
  split
  · rename_i hw
    rw [State.holdOffMove_well hw]
    rfl
  · rename_i hw
    rw [State.holdOffMove_unwell (Bool.eq_false_iff.mpr hw), s.guardMoves_to e _ r f hr hf]

section
variable (hr : s.guards[e] = some r) (hf : s.egresses[e].entry.guard = some f)
include hr hf

theorem State.guardInit_well (hw : s.primaryWell e f = true) :
    (s.guardInit e).holdOffIfZero e
      = s.setGuard e (some { ident := r.ident, state := .watching, last := none }) := by
  rw [State.guardInit_some hr hf, if_pos hw]
  exact State.holdOffIfZero_stays (setGuard_same s e _) nofun

theorem State.guardInit_later (hw : s.primaryWell e f = false) (h0 : f.holdOff ≠ 0) :
    (s.guardInit e).holdOffIfZero e
      = s.setGuard e (some { ident := r.ident, state := .holdoff (f.holdOff * 1000000), last := none }) := by
  rw [State.guardInit_some hr hf, hw, if_neg nofun]
  refine State.holdOffIfZero_stays (setGuard_same s e _) fun h => h0 ?_
  rw [GuardState.holdoff.injEq] at h
  omega

/-- A hold-off of 0 expires at once (log entry 12). -/
theorem State.guardInit_now (hw : s.primaryWell e f = false) (h0 : f.holdOff = 0) :
    (s.guardInit e).holdOffIfZero e
      = (s.setGuard e (some { ident := r.ident, state := .holdoff 0, last := none })).holdOffExpired e f := by
  rw [State.guardInit_some hr hf, hw, if_neg nofun, h0]
  exact State.holdOffIfZero_expires (setGuard_same s e _) hf rfl

end

end

/-! ### The counts of a DONE notice (R96) -/

theorem countOutcomes_eq (edits : List Edit) (o : Settlement) :
    countOutcomes edits o = edits.countP fun d => d.outcome.any fun x => decide (x.outcome = o) := by
  unfold countOutcomes
  congr 1
  funext d
  cases d.outcome <;> simp

theorem countDown_eq (edits : List Edit) :
    countDown edits = edits.countP fun d => d.outcome.any fun x => x.sourceDown := by
  unfold countDown
  congr 1
  funext d
  cases d.outcome <;> simp

/-! ### The settle event (R88, R89) -/

section
variable {s : State} {e : Port} {ev : PlanSettle} {k : SlotId} {p : Plan}

theorem execEditSettle_run (hp : s.phase = .run) (h : s.egresses[e].planSettle = some ev) :
    exec (.editSettle e) s = .next (s.takeEditSettle e ev).arbitrate := by
  refine congrArg Host.Outcome.next ((s.event_taken _ _ hp (by rw [h]; rfl)).trans ?_)
  rw [h]

/-- The event of a plan that is not APPLYING changes no plan (R88). -/
theorem State.takeEditSettle_other
    (h : ∀ (k : SlotId) (p : Plan), s.findPlan ev.id = some (k, p) → p.state ≠ .applying) :
    s.takeEditSettle e ev = s.setEgress e { s.egresses[e] with planSettle := none } := by
  unfold State.takeEditSettle
  dsimp only
  split
  · rfl
  · exact if_neg (h _ _ ‹_›)

theorem State.takeEditSettle_applying (h : s.findPlan ev.id = some (k, p)) (ha : p.state = .applying) :
    s.takeEditSettle e ev =
      let q := p.withOutcome e ev
      let v := (s.setEgress e { s.egresses[e] with planSettle := none }).editSettled k q e
      if q.edits.all (·.outcome.isSome) then v.completePlan k q else v := by
  unfold State.takeEditSettle
  dsimp only
  rw [show (s.setEgress e { s.egresses[e] with planSettle := none }).findPlan ev.id = some (k, p) from h]
  exact if_pos ha

theorem State.editSettled_time (s : State) (k : SlotId) (q : Plan) (e : Port) :
    (s.editSettled k q e).timeBase = s.timeBase := by
  obtain ⟨⟨_, _, _, _, _, _, _, _, _, _, _, h⟩, -⟩ := s.editSettled_control k q e
  rw [h]

end

/-- The plan is DONE with its time, a GROUP plan's record is removed, and the DONE notice is queued (R89). -/
theorem State.completePlan_at {s : State} {now : Word32} (h : s.timeBase = now) (k : SlotId) (q : Plan) :
    s.completePlan k q =
      let v := s.setPlan k (some { q with state := .done, doneTime := some now })
      let w := if q.trigger.isGroup then v.setGroup { v.group with plan := none } else v
      w.notify (.plan
        { event := .done, id := q.id, slot := k, trigger := q.trigger, firedBy := none, epoch := q.epochAtFire
          reason := none, editCount := q.edits.length, clean := countOutcomes q.edits .clean
          forced := countOutcomes q.edits .forced, deadline := countOutcomes q.edits .deadline
          down := countDown q.edits }) := by
  subst h
  rfl

/-- Settles O43: an event of a plan that is not APPLYING, or the edit settled, its guard, and the plan after the last
edit. -/
theorem editSettleReleasesAndCompletes : Obligations.EditSettleReleasesAndCompletes := by
  intro s e ev hp hev t
  refine ⟨fun h => by rw [execEditSettle_run hp hev, State.takeEditSettle_other h], fun k p hfound ha => ?_⟩
  intro q u
  have hu : t.editSettled k q e = u := rfl
  have taken := execEditSettle_run hp hev
  rw [State.takeEditSettle_applying hfound ha] at taken
  refine ⟨?_, fun r f hr hf => ?_, countOutcomes_eq q.edits, countDown_eq q.edits, fun hsome => ?_, fun hall => ?_⟩
  · rw [← hu, (State.editSettled_table t k q e).claims, setClaim_same]
  · have hentry : t.egresses[e].entry = s.egresses[e].entry := by rw [setEgress_same]
    let x := (t.setPlan k (some q)).setClaim e none
    have hwell : x.primaryWell e f = s.primaryWell e f := State.primaryWell_congr rfl hentry
    have hxf : x.egresses[e].entry.guard = some f := by
      show t.egresses[e].entry.guard = _
      rw [hentry, hf]
    refine ⟨fun hw => ?_, fun hw h0 => ?_, fun hw h0 => ?_⟩
    · rw [show u = _ from State.guardInit_well (s := x) hr hxf (hwell.trans hw), setGuard_same]
    · rw [show u = _ from State.guardInit_later (s := x) hr hxf (hwell.trans hw) h0, setGuard_same]
    · intro v
      exact (State.guardInit_now (s := x) hr hxf (hwell.trans hw) h0).trans
        (State.holdOffExpired_eq (s := v) (setGuard_same x e _) hxf)
  · rw [taken]
    refine congrArg (fun t : State => Host.Outcome.next t.arbitrate) (if_neg fun hall => ?_)
    obtain ⟨d, hd, hnone⟩ := hsome
    have := List.all_eq_true.mp hall d hd
    rw [hnone] at this
    cases this
  · intro v w
    rw [taken]
    refine congrArg (fun t : State => Host.Outcome.next t.arbitrate) ((if_pos ?_).trans ?_)
    · exact List.all_eq_true.mpr fun d hd => Option.isSome_iff_ne_none.mpr (hall d hd)
    · exact State.completePlan_at (t.editSettled_time k q e) k q

end Sys2Proof.Machine
end

section
/-! The fire of a plan (R68, R81 to R86, R92, R96). -/

namespace Sys2Proof.Machine

/-! ### What handing over an edit leaves (R86) -/

/-- From `s` to `t` edits have been handed over: nothing has changed but selectors, guard records, the pool, notices and
the model's own counters, no condition has occurred, and while MTX is busy every notice that waits goes on waiting. -/
structure State.EditReach (s t : State) : Prop where
  frame : ∃ es gs p cs ns l n d, t = { s with
    egresses := es, guards := gs, pool := p, conds := cs, notices := ns, link := l, guardSerial := n, draws := d }
  only : s.NoticesOnly t noneOccurred
  busy : s.link.mtx.isSome → t.link = s.link ∧ s.notices.entries <+: t.notices.entries

section
variable {s t u : State}

theorem State.EditReach.refl (s : State) : s.EditReach s :=
  ⟨⟨_, _, _, _, _, _, _, _, rfl⟩, .refl _ s, fun _ => ⟨rfl, List.prefix_rfl⟩⟩

theorem State.EditReach.trans (h : s.EditReach t) (k : t.EditReach u) : s.EditReach u := by
  obtain ⟨_, _, _, _, _, _, _, _, hf⟩ := h.frame
  obtain ⟨es, gs, p, cs, ns, l, n, d, kf⟩ := k.frame
  refine ⟨⟨es, gs, p, cs, ns, l, n, d, by rw [kf, hf]⟩, h.only.trans k.only, fun hb => ?_⟩
  obtain ⟨hl, hn⟩ := h.busy hb
  obtain ⟨kl, kn⟩ := k.busy (by rw [hl]; exact hb)
  exact ⟨kl.trans hl, hn.trans kn⟩

/-- What a change of source does is among it. -/
theorem State.EditReach.of_change {e : Port} (h : s.SelectorReach t) (k : State.ChangeReach e s t) :
    s.EditReach t := by
  obtain ⟨⟨es, gs, p, cs, ns, l, d, ht⟩, hn⟩ := h
  exact ⟨⟨es, gs, p, cs, ns, s.link.withSending l, s.guardSerial, d, ht⟩, hn, k.busy⟩

theorem State.notify_editReach (s : State) (b : NoticeBody) (hb : ∀ c, b ≠ .condition c) : s.EditReach (s.notify b) :=
  .of_change (s.notify_selector b hb) (s.notify_changeReach 0 b)

theorem State.newGuard_editReach (s : State) (e : Port) (g : GuardState) : s.EditReach (s.newGuard e g) := by
  unfold State.newGuard
  split
  · exact ⟨⟨_, _, _, _, _, _, _, _, rfl⟩, .of_eq rfl rfl rfl fun _ _ => rfl, fun _ => ⟨rfl, List.prefix_rfl⟩⟩
  · exact ⟨⟨_, _, _, _, _, _, _, _, rfl⟩, .of_eq rfl rfl rfl fun _ _ => rfl, fun _ => ⟨rfl, List.prefix_rfl⟩⟩

theorem State.handEdit_editReach (s : State) (id : Byte) (n : Nat) (d : Edit) : s.EditReach (s.handEdit id n d) :=
  (State.EditReach.of_change (s.setEgress_selector d.egress { s.egresses[d.egress] with entry := d.entry })
      (s.setEgress_changeReach d.egress _)).trans
    ((State.newGuard_editReach _ d.egress .suspendedFired).trans
      (.of_change (State.takeChange_selector _ d.egress _) (State.takeChange_changeReach _ d.egress _)))

end

/-- A new guard record is in the state that it is given (R52, R68). -/
theorem State.newGuard_state (s : State) (e : Port) (g : GuardState) :
    (s.newGuard e g).guards[e].map Guard.state = s.egresses[e].entry.guard.map fun _ => g := by
  unfold State.newGuard
  split
  · rename_i h
    rw [setGuard_same, h]
    rfl
  · rename_i f h
    rw [setSerial_guards, setGuard_same, h]
    rfl

/-! ### An edit and its egress (R68, R86) -/

section
variable {s : State} {id : Byte} {n : Nat} {d : Edit}

theorem State.handEdit_other {j : Port} (hj : j ≠ d.egress) :
    (s.handEdit id n d).egresses[j] = s.egresses[j] ∧ (s.handEdit id n d).guards[j] = s.guards[j] := by
  unfold State.handEdit
  dsimp only
  obtain ⟨hegress, -, -, hothers⟩ :=
    (s.setEgress d.egress { s.egresses[d.egress] with entry := d.entry }).newGuard_records d.egress .suspendedFired
  refine ⟨((State.takeChange_onlyAt _ _ _).egresses j hj).trans ?_,
    ((State.takeChange_onlyAt _ _ _).guards j hj).trans ?_⟩
  · rw [hegress, setEgress_other s _ _ j hj]
  · rw [hothers j hj]
    rfl

/-- The entry is replaced whole, and a new guard starts SUSPENDED (R68, R86). -/
theorem State.handEdit_own : (s.handEdit id n d).egresses[d.egress].entry = d.entry
    ∧ (s.handEdit id n d).guards[d.egress].map Guard.state
        = d.entry.guard.map fun _ => GuardState.suspendedFired := by
  unfold State.handEdit
  dsimp only
  obtain ⟨hegress, -, -, -⟩ :=
    (s.setEgress d.egress { s.egresses[d.egress] with entry := d.entry }).newGuard_records d.egress .suspendedFired
  refine ⟨(State.takeChange_onlyAt _ _ _).entry.trans ?_, (State.takeChange_changeReach _ _ _).guard.trans ?_⟩
  · rw [hegress, setEgress_same]
  · rw [State.newGuard_state, setEgress_same]

/-- The change that an edit hands to the selector (R86). -/
def editChange (id : Byte) (drainDeadline : Nat) (d : Edit) : Change :=
  { target := d.entry.source, policy := d.entry.policy
    deadline := if drainDeadline = 0 then none else some drainDeadline, requester := .plan id, cut := .none }

theorem State.handEdit_bare (h : d.entry.guard = none) :
    s.handEdit id n d
      = ((s.setEgress d.egress { s.egresses[d.egress] with entry := d.entry }).setGuard d.egress none).takeChange
          d.egress (editChange id n d) := by
  unfold State.handEdit State.newGuard
  dsimp only
  rw [setEgress_same]
  dsimp only
  rw [h]
  rfl

theorem State.handEdit_guarded (h : d.entry.guard ≠ none) :
    s.handEdit id n d
      = (((s.setEgress d.egress { s.egresses[d.egress] with entry := d.entry }).setGuard d.egress (some
          { ident := s.guardSerial, state := .suspendedFired, last := none })).setSerial
          (s.guardSerial + 1)).takeChange d.egress (editChange id n d) := by
  obtain ⟨f, hf⟩ := Option.ne_none_iff_exists'.mp h
  unfold State.handEdit State.newGuard
  dsimp only
  rw [setEgress_same]
  dsimp only
  rw [hf]
  rfl

end

/-! ### All edits of a plan, in list order (R86) -/

/-- The edits of a list are handed over one after the other. -/
def State.handEdits (s : State) (id : Byte) (n : Nat) (edits : List Edit) : State :=
  edits.foldl (fun v d => v.handEdit id n d) s

section
variable (id : Byte) (n : Nat)

theorem State.handEdits_editReach (s : State) (edits : List Edit) : s.EditReach (s.handEdits id n edits) := by
  induction edits generalizing s with
  | nil => exact .refl s
  | cons d edits ih => exact (s.handEdit_editReach id n d).trans (ih _)

theorem State.handEdits_table (s : State) (edits : List Edit) : s.TableStays (s.handEdits id n edits) :=
  State.foldl_table _ _ (fun t d => t.handEdit_table id n d) s

theorem State.handEdits_other (s : State) (edits : List Edit) {e : Port} (he : e ∉ edits.map (·.egress)) :
    (s.handEdits id n edits).egresses[e] = s.egresses[e] ∧ (s.handEdits id n edits).guards[e] = s.guards[e] := by
  induction edits generalizing s with
  | nil => exact ⟨rfl, rfl⟩
  | cons d edits ih =>
    rw [List.map_cons, List.mem_cons, not_or] at he
    obtain ⟨hegress, hguard⟩ := ih (s.handEdit id n d) he.2
    obtain ⟨kegress, kguard⟩ := State.handEdit_other (s := s) (id := id) (n := n) he.1
    exact ⟨hegress.trans kegress, hguard.trans kguard⟩

/-- Where no egress is edited twice (R73), each edit's entry and guard stand at the end. -/
theorem State.handEdits_own (s : State) (edits : List Edit) (hn : (edits.map (·.egress)).Nodup) {d : Edit}
    (hd : d ∈ edits) : (s.handEdits id n edits).egresses[d.egress].entry = d.entry
      ∧ (s.handEdits id n edits).guards[d.egress].map Guard.state
          = d.entry.guard.map fun _ => GuardState.suspendedFired := by
  induction edits generalizing s with
  | nil => exact absurd hd List.not_mem_nil
  | cons x edits ih =>
    rw [List.map_cons, List.nodup_cons] at hn
    rcases List.mem_cons.mp hd with rfl | hd
    · obtain ⟨hegress, hguard⟩ := State.handEdits_other id n (s.handEdit id n d) edits hn.1
      obtain ⟨kentry, kguard⟩ := State.handEdit_own (s := s) (id := id) (n := n) (d := d)
      exact ⟨(congrArg Egress.entry hegress).trans kentry, (congrArg (Option.map Guard.state) hguard).trans kguard⟩
    · exact ih (s.handEdit id n x) hn.2 hd

end

/-! ### The fire (R85) -/

/-- The FIRED notice of a plan (R96). -/
def firedNotice (k : SlotId) (p : Plan) (epoch : Option Half) (byRequest : Bool) : PlanNotice :=
  { planNotice k p .fired with firedBy := some (firedBy p.trigger byRequest), epoch := epoch }

/-- A plan that is APPLYING tells so, if asked for (R85, steps 1 to 4). -/
def State.announceFire (s : State) (k : SlotId) (p : Plan) (epoch : Option Half) (byRequest : Bool) : State :=
  let u := s.setPlan k (some (p.fired s.timeBase epoch))
  if p.fireNotice then u.notify (.plan (firedNotice k p epoch byRequest)) else u

section
variable {s : State} {k : SlotId} {p : Plan} {epoch : Option Half} {byRequest : Bool}

theorem State.firePlan_armed (hp : s.plans[k] = some p) (ha : p.state = .armed) :
    s.firePlan k epoch byRequest
      = (s.announceFire k p epoch byRequest).handEdits p.id p.drainDeadline p.edits := by
  unfold State.firePlan
  rw [hp]
  exact if_pos ha

theorem State.firePlan_still (hp : s.plans[k] = some p) (ha : p.state ≠ .armed) :
    s.firePlan k epoch byRequest = s := by
  unfold State.firePlan
  rw [hp]
  exact if_neg ha

theorem State.announceFire_editReach :
    (s.setPlan k (some (p.fired s.timeBase epoch))).EditReach (s.announceFire k p epoch byRequest) := by
  unfold State.announceFire
  dsimp only
  split
  · exact State.notify_editReach _ _ fun _ => nofun
  · exact .refl _

theorem State.announceFire_sameMap :
    (s.setPlan k (some (p.fired s.timeBase epoch))).SameMap (s.announceFire k p epoch byRequest) := by
  unfold State.announceFire
  dsimp only
  split
  · exact State.notify_sameMap _ _
  · exact .refl _

theorem State.announceFire_table :
    (s.setPlan k (some (p.fired s.timeBase epoch))).TableStays (s.announceFire k p epoch byRequest) := by
  unfold State.announceFire
  dsimp only
  split
  · exact State.notify_table _ _
  · exact .refl _

theorem State.firePlan_editReach (hp : s.plans[k] = some p) (ha : p.state = .armed) :
    (s.setPlan k (some (p.fired s.timeBase epoch))).EditReach (s.firePlan k epoch byRequest) := by
  rw [State.firePlan_armed hp ha]
  exact State.announceFire_editReach.trans (State.handEdits_editReach _ _ _ _)

/-- Of the plan table and the claims a fire changes its own plan's record alone. -/
theorem State.firePlan_table (hp : s.plans[k] = some p) (ha : p.state = .armed) :
    (s.setPlan k (some (p.fired s.timeBase epoch))).TableStays (s.firePlan k epoch byRequest) := by
  rw [State.firePlan_armed hp ha]
  exact State.announceFire_table.trans (State.handEdits_table _ _ _ _)

theorem State.firePlan_otherPlan {j : SlotId} (hj : j ≠ k) :
    (s.firePlan k epoch byRequest).plans[j] = s.plans[j] := by
  cases hp : s.plans[k] with
  | none =>
    unfold State.firePlan
    rw [hp]
  | some p =>
    by_cases ha : p.state = .armed
    · rw [(State.firePlan_table hp ha).plans, setPlan_other s k _ j hj]
    · rw [State.firePlan_still hp ha]

theorem State.firePlan_plan (hp : s.plans[k] = some p) (ha : p.state = .armed) :
    (s.firePlan k epoch byRequest).plans[k] = some (p.fired s.timeBase epoch) := by
  rw [(State.firePlan_table hp ha).plans, setPlan_same]

/-- After its fire a plan is not ARMED (R85). -/
theorem State.firePlan_leaves (hq : (s.firePlan k epoch byRequest).plans[k] = some p) : p.state ≠ .armed := by
  intro harmed
  cases hp : s.plans[k] with
  | none =>
    unfold State.firePlan at hq
    rw [hp] at hq
    dsimp only at hq
    rw [hp] at hq
    cases hq
  | some q =>
    by_cases ha : q.state = .armed
    · rw [State.firePlan_plan hp ha] at hq
      cases hq
      cases harmed
    · rw [State.firePlan_still hp ha, hp] at hq
      cases hq
      exact ha harmed

/-- With MTX busy and room in the queue the FIRED notice is the next to wait, before those of the edits (R85, R148). -/
theorem State.firePlan_notice (hp : s.plans[k] = some p) (ha : p.state = .armed) (hask : p.fireNotice = true)
    (hbusy : s.link.mtx.isSome) (hroom : s.notices.entries.length < 32) :
    (s.firePlan k epoch byRequest).notices.entries[s.notices.entries.length]?
      = some { number := s.notices.next, time := s.timeBase, body := .plan (firedNotice k p epoch byRequest) } := by
  have told : s.announceFire k p epoch byRequest = _ := (if_pos hask).trans (State.notify_busy _ _ hbusy)
  have queued := congrArg (fun t : State => t.notices) told
  replace queued : (s.announceFire k p epoch byRequest).notices
    = s.notices.offer s.timeBase (.plan (firedNotice k p epoch byRequest)) := queued
  have hlink : (s.announceFire k p epoch byRequest).link.mtx.isSome := by
    rw [(State.announceFire_editReach.busy hbusy).1]
    exact hbusy
  obtain ⟨later, hlater⟩ :=
    ((State.handEdits_editReach p.id p.drainDeadline (s.announceFire k p epoch byRequest) p.edits).busy hlink).2
  rw [State.firePlan_armed hp ha, ← hlater, queued, s.notices.offer_room _ _ hroom]
  simp

end

/-! ### A trigger event (R81 to R83) -/

section
variable {s : State} {g : Trigger}

theorem State.mem_waitingOn (s : State) (g : Trigger) (k : SlotId) :
    k ∈ s.waitingOn g ↔ ∃ p, s.plans[k] = some p ∧ p.state = .armed ∧ p.trigger = g := by
  unfold State.waitingOn allSlots
  rw [List.mem_filter]
  cases s.plans[k] <;> simp

theorem State.waitingOn_nodup (s : State) (g : Trigger) : (s.waitingOn g).Nodup := (List.nodup_finRange 8).filter _

/-- Plans that fire one after the other leave none of them ARMED. -/
theorem State.fires_leave (l : List SlotId) (s : State)
    (h : ∀ (k : SlotId) (p : Plan), k ∉ l → s.plans[k] = some p → p.trigger = g → p.state ≠ .armed) (k : SlotId)
    (p : Plan) (hp : (l.foldl (fun t k => t.firePlan k none false) s).plans[k] = some p) (hg : p.trigger = g) :
    p.state ≠ .armed := by
  induction l generalizing s with
  | nil => exact h k p List.not_mem_nil hp hg
  | cons x l ih =>
    refine ih (s.firePlan x none false) (fun j q hj hq hqg => ?_) hp
    by_cases hjx : j = x
    · subst hjx
      exact State.firePlan_leaves hq
    · rw [State.firePlan_otherPlan hjx] at hq
      exact h j q (fun hm => (List.mem_cons.mp hm).elim hjx hj) hq hqg

theorem State.fireWaiting_leaves {k : SlotId} {p : Plan} (hp : (s.fireWaiting g).plans[k] = some p)
    (hg : p.trigger = g) : p.state ≠ .armed := by
  obtain ⟨l, draws, hl, hfire⟩ := s.inSomeOrder_order (s.waitingOn g) fun k t => t.firePlan k none false
  rw [show s.fireWaiting g = _ from hfire] at hp
  refine State.fires_leave l (s.setDraws draws) (fun j q hj hq hqg ha => hj ?_) k p hp hg
  exact hl.mem_iff.mpr ((s.mem_waitingOn g j).mpr ⟨q, hq, ha, hqg⟩)

end

/-- Only a MARK or SENSE plan can be overridden, by a PLAN_FIRE (R96). -/
theorem firedBy_override (g : Trigger) (byRequest : Bool) :
    firedBy g byRequest = .override ↔ byRequest = true ∧ ((∃ p, g = .mark p) ∨ ∃ n, g = .sense n) := by
  cases g <;> cases byRequest <;> simp [firedBy]

/-! ### PLAN_FIRE (R92) -/

section
variable {s : State} {m : Message} {rest : List Message} {k : SlotId} {p : Plan}

theorem execPlanFire_eq (h : s.CanTake m rest 0x32) : exec .planFire s
    = .next ((planRequest fireRequest m (s.taken rest)).2.replied m (planRequest fireRequest m (s.taken rest)).1) :=
  congrArg Host.Outcome.next (s.execute_kind m rest 0x32 (planRequest fireRequest) h)

theorem fireRequest_group (t : State) (h : p.trigger.isGroup = true) :
    fireRequest k p t = (Answer.refuse .notAllowed, t) := if_pos h

theorem fireRequest_unarmed (t : State) (h : p.trigger.isGroup = false) (ha : p.state ≠ .armed) :
    fireRequest k p t = (Answer.refuse .wrongState, t) := by
  unfold fireRequest
  rw [h, if_neg nofun, if_pos ha]

theorem fireRequest_armed (t : State) (h : p.trigger.isGroup = false) (hp : t.plans[k] = some p)
    (ha : p.state = .armed) : fireRequest k p t = (Answer.ok [3], t.firePlan k none true) := by
  unfold fireRequest
  rw [h, if_neg nofun, if_neg (not_not.mpr ha)]
  dsimp only
  rw [State.planCode, State.firePlan_plan hp ha]
  rfl

end

/-- Settles O40: the fire with its edits, each edit, the request, and a trigger event. -/
theorem fireHandsOverEveryEdit : Obligations.FireHandsOverEveryEdit := by
  refine ⟨fun s k p epoch byRequest hp => ⟨State.firePlan_still hp, fun ha => ?_⟩,
    fun s id drain d => ⟨State.handEdit_bare, State.handEdit_guarded⟩, fun s m rest id k p hcan hm => ?_,
    fun s g => ⟨?_, fun k p => State.fireWaiting_leaves⟩, firedBy_override⟩
  · intro t fired u notice
    have reach : u.EditReach t := State.firePlan_editReach hp ha
    obtain ⟨_, _, _, _, _, _, _, _, hframe⟩ := reach.frame
    have told : u.SameMap (s.announceFire k p epoch byRequest) := State.announceFire_sameMap
    refine ⟨State.firePlan_armed hp ha, State.firePlan_plan hp ha, fun j => State.firePlan_otherPlan,
      fun hn d hd => ?_, fun e he => ?_, State.firePlan_notice hp ha, (State.firePlan_table hp ha).claims,
      by rw [hframe]; rfl, by rw [hframe]; rfl, ?_, by rw [hframe]; rfl, by rw [hframe]; rfl⟩
    · rw [show t = _ from State.firePlan_armed hp ha]
      exact State.handEdits_own _ _ _ _ hn hd
    · rw [show t = _ from State.firePlan_armed hp ha]
      obtain ⟨hegress, hguard⟩ :=
        State.handEdits_other p.id p.drainDeadline (s.announceFire k p epoch byRequest) p.edits he
      rw [hegress, hguard, told.egresses, told.guards]
      exact ⟨rfl, rfl⟩
    · exact (State.NoticesOnly.of_eq rfl rfl rfl fun _ _ => rfl).trans reach.only
  · rw [execPlanFire_eq hcan]
    refine ⟨fun h0 => ?_, fun h0 hnone => ?_, fun h0 hfound => ⟨fun hg => ?_, fun hg ha => ?_, fun hg ha => ?_⟩⟩
    · rw [planRequest_zero _ _ (h0 ▸ hm)]
    · rw [planRequest_unknown _ (s.taken rest) hm h0 hnone]
    · rw [planRequest_found _ (s.taken rest) hm h0 hfound, fireRequest_group _ hg]
    · rw [planRequest_found _ (s.taken rest) hm h0 hfound, fireRequest_unarmed _ hg ha]
    · rw [planRequest_found _ (s.taken rest) hm h0 hfound,
        fireRequest_armed (s.taken rest) hg (s.findPlan_some id k p hfound).1 ha]
  · obtain ⟨l, draws, hl, hfire⟩ := s.inSomeOrder_order (s.waitingOn g) fun k t => t.firePlan k none false
    exact ⟨l, draws, hl.nodup_iff.mpr (s.waitingOn_nodup g), fun k => hl.mem_iff.trans (s.mem_waitingOn g k),
      fun k => hl.mem_iff.symm, hfire⟩

end Sys2Proof.Machine
end

section
/-! PLAN_ARM (R66, R75, R76, R101, R102). -/

namespace Sys2Proof.Machine

/-! ### Claims taken and guards suspended (R66, R76) -/

/-- A guard record as a plan's claim suspends it (R66). -/
def Guard.suspended (r : Guard) : Guard :=
  match r.state.selection with
  | some sel => { r with state := .suspended sel r.state.override }
  | none => r

/-- Suspended again, a guard remembers what it remembered. -/
theorem Guard.suspended_suspended (r : Guard) : r.suspended.suspended = r.suspended := by
  obtain ⟨ident, state, last⟩ := r
  cases state <;> rfl

theorem Guard.suspended_remembers (r : Guard) : GuardSuspends r (some r.suspended) := by
  unfold Guard.suspended
  refine ⟨fun h => ?_, fun h => ?_, fun h => ?_, fun h => ?_⟩
  · rw [h]
    rfl
  · rw [h]
    rfl
  · rcases h with h | ⟨left, h⟩ | h <;> rw [h] <;> rfl
  · rcases h with h | ⟨left, h⟩ <;> rw [h] <;> rfl

section
variable (s : State)

theorem State.guardSuspend_frame (e : Port) : ∃ gs, s.guardSuspend e = { s with guards := gs } := by
  unfold State.guardSuspend
  split
  · exact ⟨s.guards, rfl⟩
  · split
    · exact ⟨_, rfl⟩
    · exact ⟨s.guards, rfl⟩

theorem State.guardSuspend_same (e : Port) : (s.guardSuspend e).guards[e] = s.guards[e].map Guard.suspended := by
  unfold State.guardSuspend
  cases hr : s.guards[e] with
  | none => exact hr
  | some r =>
    rw [Option.map_some, Guard.suspended]
    cases hsel : r.state.selection with
    | none => simp [hsel, hr]
    | some sel => simp [hsel, s.guardTo_some e r _ hr]

theorem State.guardSuspend_other {e j : Port} (hj : j ≠ e) : (s.guardSuspend e).guards[j] = s.guards[j] := by
  unfold State.guardSuspend
  split
  · rfl
  · split
    · exact setGuard_other s e _ j hj
    · rfl

/-- Claims are taken of claims and guards alone. -/
theorem State.takeClaims_frame (p : Plan) :
    ∃ cl gs, s.takeClaims p = { s with claims := cl, guards := gs } := by
  unfold State.takeClaims
  generalize p.edits.map (·.egress) = es
  induction es generalizing s with
  | nil => exact ⟨s.claims, s.guards, rfl⟩
  | cons e es ih =>
    obtain ⟨cl, gs, h⟩ := ih (s.claim p.id e)
    obtain ⟨gs', h'⟩ := (s.setClaim e (some p.id)).guardSuspend_frame e
    refine ⟨cl, gs, h.trans ?_⟩
    rw [show s.claim p.id e = _ from h']
    rfl

/-- Every edited egress's guard is suspended, and no other (R76, step 1). -/
theorem State.takeClaims_guards (p : Plan) (e : Port) :
    (s.takeClaims p).guards[e]
      = if e ∈ p.edits.map (·.egress) then s.guards[e].map Guard.suspended else s.guards[e] := by
  unfold State.takeClaims
  generalize p.edits.map (·.egress) = es
  induction es generalizing s with
  | nil => rfl
  | cons x es ih =>
    have claimed : (s.claim p.id x).guards[e] = if e = x then s.guards[e].map Guard.suspended else s.guards[e] := by
      split
      · rename_i hx
        subst hx
        exact (s.setClaim e (some p.id)).guardSuspend_same e
      · rename_i hx
        exact (s.setClaim x (some p.id)).guardSuspend_other hx
    refine (ih (s.claim p.id x)).trans ?_
    rw [claimed]
    by_cases hx : e = x
    · rw [if_pos hx, if_pos (List.mem_cons.mpr (.inl hx)), Option.map_map,
        show Guard.suspended ∘ Guard.suspended = Guard.suspended from funext Guard.suspended_suspended, ite_self]
    · rw [if_neg hx]
      simp only [List.mem_cons, hx, false_or]

end

/-! ### The group interface is told (R101, R102) -/

section
variable {s : State} {r : GroupPlan}

/-- A member in LOW_IDLE, whose drive is LOW already, goes by the ready condition (R101, R104). -/
theorem State.groupArmed_idle (h : s.group.membership = .member .lowIdle) :
    s.groupArmed r = s.setGroup { s.group with
      membership := .member (
        if s.groupReady r then .released (if s.group.high then some 200 else none) else .lowWait)
      plan := some r
      faultTimer := if s.groupReady r then none else s.group.faultTimer } := by
  let t := s.setGroup { s.group with plan := some r }
  have still (m : Membership) : t.group.pullsDown m = false := by
    have hlow : t.group.driveLow = true := congrArg Membership.driveLow h
    unfold Group.pullsDown
    rw [hlow, Bool.not_true, Bool.and_false, Bool.false_and]
  have moves (m : Membership) : t.groupTo m = s.setGroup { s.group with
      membership := m, plan := some r, faultTimer := if m.driveLow then s.group.faultTimer else none } := by
    rw [t.groupTo_of_not_pullsDown (still m), t.group.moveTo_of_not_pullsDown _ (still m)]
    rfl
  unfold State.groupArmed
  rw [h]
  dsimp only
  cases hready : s.groupReady r with
  | true => exact (State.groupEnter_ready (s := t) hready).trans (moves _)
  | false => exact (State.groupEnter_waits (s := t) hready).trans (moves _)

/-- In any other state the interface holds the record, and stays (R101). -/
theorem State.groupArmed_other (h : s.group.membership ≠ .member .lowIdle) :
    s.groupArmed r = s.setGroup { s.group with plan := some r } := by
  unfold State.groupArmed
  dsimp only
  split
  · exact absurd ‹_› h
  all_goals rfl

end

/-- The group plan record of a plan (R101, R102). -/
def Plan.groupRecord (p : Plan) : GroupPlan :=
  { id := p.id, applying := false, ready := p.trigger.ready, sources := p.ingressSources }

theorem Plan.mem_ingressSources (p : Plan) (q : Port) :
    q ∈ p.ingressSources ↔ ∃ d ∈ p.edits, d.entry.source = .ingress q := by
  simp [Plan.ingressSources, allPorts]

theorem Trigger.isGroup_iff (g : Trigger) : g.isGroup = true ↔ ∃ x, g = .group x := by
  cases g <;> simp [Trigger.isGroup]

theorem Trigger.group_ready (g : Trigger) (h : g.isGroup = true) : g = .group g.ready := by
  obtain ⟨x, rfl⟩ := g.isGroup_iff.mp h
  rfl

theorem State.tellArmed_group {s : State} {p : Plan} (h : p.trigger.isGroup = true) :
    s.tellArmed p = s.groupArmed p.groupRecord := if_pos h

theorem State.tellArmed_single {s : State} {p : Plan} (h : p.trigger.isGroup = false) : s.tellArmed p = s :=
  if_neg (Bool.eq_false_iff.mp h)

theorem State.tellArmed_frame (s : State) (p : Plan) : ∃ g, s.tellArmed p = s.setGroup g := by
  cases hg : p.trigger.isGroup with
  | false => exact ⟨s.group, State.tellArmed_single hg⟩
  | true =>
    rw [State.tellArmed_group hg]
    by_cases h : s.group.membership = .member .lowIdle
    · exact ⟨_, State.groupArmed_idle h⟩
    · exact ⟨_, State.groupArmed_other h⟩

/-! ### The arming (R76) -/

/-- The plan record as it is ARMED (R76, steps 2 and 3). -/
def Plan.armed (p : Plan) : Plan := { p with state := .armed, timer := p.armTimer }

/-- Steps 1 to 4 of R76. -/
def State.armSteps (s : State) (k : SlotId) (p : Plan) : State :=
  ((s.takeClaims p).setPlan k (some p.armed)).tellArmed p

section
variable (s : State) (k : SlotId) (p : Plan)

theorem State.armPlan_eq :
    s.armPlan k p = if p.trigger = .now then (s.armSteps k p).firePlan k none false else s.armSteps k p := rfl

/-- What an arming does before the group interface is told (R76, steps 1 to 3). -/
theorem State.armSteps_claimed : ∃ ps cl gs,
    (s.takeClaims p).setPlan k (some p.armed) = { s with plans := ps, claims := cl, guards := gs } := by
  obtain ⟨cl, gs, h⟩ := s.takeClaims_frame p
  exact ⟨_, cl, gs, by rw [h]; rfl⟩

theorem State.armSteps_frame : s.armSteps k p = { s with
    plans := (s.armSteps k p).plans, claims := (s.armSteps k p).claims, guards := (s.armSteps k p).guards
    group := (s.armSteps k p).group } := by
  obtain ⟨ps, cl, gs, h⟩ := s.armSteps_claimed k p
  obtain ⟨g, hg⟩ := State.tellArmed_frame ((s.takeClaims p).setPlan k (some p.armed)) p
  rw [show s.armSteps k p = _ from hg, h]
  rfl

theorem State.armSteps_guards : (s.armSteps k p).guards = (s.takeClaims p).guards := by
  obtain ⟨g, hg⟩ := State.tellArmed_frame ((s.takeClaims p).setPlan k (some p.armed)) p
  rw [show s.armSteps k p = _ from hg]
  rfl

theorem State.armSteps_plans : (s.armSteps k p).plans = (s.setPlan k (some p.armed)).plans := by
  refine (State.tellArmed_table _ p).plans.trans ?_
  unfold State.setPlan
  rw [(s.takeClaims_claims p).1]

theorem State.armSteps_claims (e : Port) :
    (s.armSteps k p).claims[e] = if e ∈ p.edits.map (·.egress) then some p.id else s.claims[e] := by
  rw [show (s.armSteps k p).claims = (s.takeClaims p).claims from (State.tellArmed_table _ p).claims]
  exact (s.takeClaims_claims p).2 e

theorem State.armSteps_plan : (s.armSteps k p).plans[k] = some p.armed := by
  rw [s.armSteps_plans k p, setPlan_same]

/-- A plan that is not GROUP tells the group interface nothing (R101). -/
theorem State.armSteps_single (h : p.trigger.isGroup = false) : (s.armSteps k p).group = s.group := by
  obtain ⟨ps, cl, gs, hx⟩ := s.armSteps_claimed k p
  unfold State.armSteps
  rw [State.tellArmed_single h, hx]

/-- The group interface as it is told of a plan (R101, R102, R104). -/
theorem State.armSteps_group (h : p.trigger.isGroup = true) :
    (s.armSteps k p).group = if s.group.membership = .member .lowIdle then
        { s.group with
          membership := .member (
            if s.groupReady p.groupRecord then .released (if s.group.high then some 200 else none) else .lowWait)
          plan := some p.groupRecord
          faultTimer := if s.groupReady p.groupRecord then none else s.group.faultTimer }
      else { s.group with plan := some p.groupRecord } := by
  obtain ⟨ps, cl, gs, hx⟩ := s.armSteps_claimed k p
  let x : State := { s with plans := ps, claims := cl, guards := gs }
  have told : s.armSteps k p = x.groupArmed p.groupRecord := by
    unfold State.armSteps
    rw [hx, State.tellArmed_group h]
  rw [told]
  split
  · rename_i hidle
    exact congrArg State.group (State.groupArmed_idle (s := x) hidle)
  · rename_i hidle
    exact congrArg State.group (State.groupArmed_other (s := x) hidle)

theorem State.armSteps_armed : PlanArmed s (s.armSteps k p) k p := by
  have guards (e : Port) : (s.armSteps k p).guards[e]
      = if e ∈ p.edits.map (·.egress) then s.guards[e].map Guard.suspended else s.guards[e] := by
    rw [s.armSteps_guards k p]
    exact s.takeClaims_guards p e
  refine ⟨s.armSteps_frame k p, s.armSteps_plan k p, fun j hj => ?_, s.armSteps_claims k p, fun e => ?_,
    fun e r he hr => ?_, s.armSteps_single k p, fun hg => ?_⟩
  · rw [s.armSteps_plans k p, setPlan_other s k _ j hj]
  · rw [guards e, s.guardSuspend_same e]
  · rw [guards e, if_pos he, hr]
    exact r.suspended_remembers
  · rw [s.armSteps_group k p hg]
    refine ⟨p.groupRecord, ?_, rfl, rfl, p.trigger.group_ready hg, p.mem_ingressSources, fun h => ?_, fun h => ?_⟩
    · split <;> rfl
    · rw [if_pos h]
      exact ⟨rfl, rfl⟩
    · rw [if_neg h]
      exact ⟨rfl, rfl⟩

end

/-! ### The refusals (R75) -/

/-- The first of the numbers below `n` that gives something. -/
theorem findSome_finRange {α : Type} {n : Nat} {f : Fin n → Option α} {a : α} (k : Fin n) (hk : f k = some a)
    (hlow : ∀ j < k, f j = none) : (List.finRange n).findSome? f = some a := by
  obtain ⟨before, after, hsplit⟩ := List.append_of_mem (List.mem_finRange k)
  refine List.findSome?_eq_some_iff.mpr ⟨before, k, after, hsplit, hk, fun j hj => hlow j ?_⟩
  have sorted : (before ++ k :: after).Pairwise (· < ·) := hsplit ▸ List.pairwise_lt_finRange n
  exact (List.pairwise_append.mp sorted).2.2 j hj k List.mem_cons_self

section
variable {s : State} {m : Message} {rest : List Message} {k : SlotId} {p : Plan}

/-- The lowest claimed egress that the plan edits, and who holds it (R75). -/
theorem State.conflict_lowest {e : Port} {holder : Byte} (he : e ∈ p.edits.map (·.egress))
    (hc : s.claims[e] = some holder)
    (hlow : ∀ j : Port, j < e → j ∈ p.edits.map (·.egress) → s.claims[j] = none) :
    s.conflict p = some (e, holder) := by
  refine findSome_finRange e ?_ fun j hj => ?_
  · rw [if_pos (List.contains_iff_mem.mpr he), hc]
    rfl
  · split
    · rename_i hm
      rw [hlow j hj (List.contains_iff_mem.mp hm)]
      rfl
    · rfl

theorem State.conflict_none (h : ∀ e ∈ p.edits.map (·.egress), s.claims[e] = none) : s.conflict p = none := by
  refine List.findSome?_eq_none_iff.mpr fun e _ => ?_
  split
  · rename_i hm
    rw [h e (List.contains_iff_mem.mp hm)]
    rfl
  · rfl

theorem State.groupBusy_iff (s : State) : s.groupBusy = true ↔ ∃ (j : SlotId) (q : Plan), s.plans[j] = some q
    ∧ q.trigger.isGroup = true ∧ (q.state = .armed ∨ q.state = .applying) := by
  unfold State.groupBusy
  rw [List.any_eq_true]
  constructor
  · rintro ⟨x, hx, hq⟩
    obtain ⟨i, hi, rfl⟩ := Vector.mem_iff_getElem.mp (Vector.mem_toList_iff.mp hx)
    obtain ⟨q, hplan, hq⟩ := (Option.any_eq_true _ _).mp hq
    exact ⟨⟨i, hi⟩, q, hplan, by simpa using hq⟩
  · rintro ⟨j, q, hplan, hq⟩
    refine ⟨s.plans[j], Vector.mem_toList_iff.mpr (Vector.getElem_mem j.isLt), ?_⟩
    rw [hplan]
    simpa using hq

theorem Membership.isMember_iff (x : Membership) : x.isMember = true ↔ ∃ y, x = .member y := by
  cases x <;> simp [Membership.isMember]

theorem State.armRefusal_state (h : p.state ≠ .loaded) : s.armRefusal p = some (Answer.refuse .wrongState) := if_pos h

theorem State.armRefusal_notMember (h : p.state = .loaded) (hg : p.trigger.isGroup = true)
    (hm : s.group.membership.isMember = false) : s.armRefusal p = some (Answer.refuse .notMember) := by
  unfold State.armRefusal
  rw [if_neg (not_not.mpr h), hg, hm]
  rfl

theorem State.armRefusal_busy (h : p.state = .loaded) (hg : p.trigger.isGroup = true)
    (hm : s.group.membership.isMember = true) (hb : s.groupBusy = true) :
    s.armRefusal p = some (Answer.refuse .groupBusy) := by
  unfold State.armRefusal
  rw [if_neg (not_not.mpr h), hg, hm, hb]
  rfl

/-- Past the checks of state and group only a claim is in the way (R75). -/
theorem State.armRefusal_claims (h : p.state = .loaded)
    (hg : p.trigger.isGroup = true → s.group.membership.isMember = true ∧ s.groupBusy = false) :
    s.armRefusal p = (s.conflict p).map fun c =>
      { status := .claimConflict, result := [natByte c.1.val, c.2], restart := false } := by
  have member : (p.trigger.isGroup && !s.group.membership.isMember) = false := by
    cases hx : p.trigger.isGroup with
    | false => rfl
    | true => rw [(hg hx).1]; rfl
  have idle : (p.trigger.isGroup && s.groupBusy) = false := by
    cases hx : p.trigger.isGroup with
    | false => rfl
    | true => exact (hg hx).2
  unfold State.armRefusal
  rw [if_neg (not_not.mpr h), member, idle, if_neg nofun, if_neg nofun]
  cases s.conflict p <;> rfl

/-! ### The request -/

theorem execPlanArm_eq (h : s.CanTake m rest 0x31) : exec .planArm s
    = .next ((planRequest armRequest m (s.taken rest)).2.replied m (planRequest armRequest m (s.taken rest)).1) :=
  congrArg Host.Outcome.next (s.execute_kind m rest 0x31 (planRequest armRequest) h)

theorem armRequest_refused {a : Answer} (t : State) (h : t.armRefusal p = some a) : armRequest k p t = (a, t) := by
  unfold armRequest
  rw [h]

theorem armRequest_armed (t : State) (h : t.armRefusal p = none) (hn : p.trigger ≠ .now) :
    armRequest k p t = (Answer.ok [2], t.armSteps k p) := by
  unfold armRequest
  rw [h]
  dsimp only
  rw [t.armPlan_eq, if_neg hn, State.planCode, t.armSteps_plan k p]
  rfl

/-- A NOW plan fires at once (R85). -/
theorem armRequest_now (t : State) (h : t.armRefusal p = none) (hn : p.trigger = .now) :
    armRequest k p t = (Answer.ok [3], (t.armSteps k p).firePlan k none false) := by
  unfold armRequest
  rw [h]
  dsimp only
  rw [t.armPlan_eq, if_pos hn, State.planCode, State.firePlan_plan (t.armSteps_plan k p) rfl]
  rfl

end

/-- Settles O39: the refusals in their order, the arming step by step, and the fire of a NOW plan. -/
theorem planArmClaimsAndArms : Obligations.PlanArmClaimsAndArms := by
  intro s m rest id hcan hm refused
  have run := execPlanArm_eq hcan
  refine ⟨⟨fun h0 => ?_, fun h0 hnone => ?_, fun k p h0 hfound => ?_⟩, s.groupBusy_iff,
    s.group.membership.isMember_iff, Trigger.isGroup_iff⟩
  · show exec .planArm s = _
    rw [run, planRequest_zero _ _ (h0 ▸ hm)]
  · show exec .planArm s = _
    rw [run, planRequest_unknown _ (s.taken rest) hm h0 hnone]
  · intro group
    rw [planRequest_found _ (s.taken rest) hm h0 hfound] at run
    have refuses {a : Answer} (h : (s.taken rest).armRefusal p = some a) :
        exec .planArm s = .next ((s.taken rest).replied m a) := by
      rw [run, armRequest_refused _ h]
    refine ⟨fun hs => refuses (State.armRefusal_state hs),
      fun hs hg hmem => refuses (State.armRefusal_notMember hs hg hmem),
      fun hs hg hmem hb => refuses (State.armRefusal_busy hs hg hmem hb), fun hs hg => ?_⟩
    have claims := State.armRefusal_claims (s := s.taken rest) hs hg
    refine ⟨fun e holder he hc hlow => refuses ?_, fun hfree => ?_⟩
    · rw [claims, State.conflict_lowest (s := s.taken rest) he hc hlow]
      rfl
    · rw [State.conflict_none (s := s.taken rest) hfree] at claims
      have armed : PlanArmed (s.taken rest) _ k p := (s.taken rest).armSteps_armed k p
      refine ⟨_, armed, fun hn => by rw [run, armRequest_armed _ claims hn], fun hn => ?_⟩
      have table := State.firePlan_table (epoch := none) (byRequest := false)
        ((s.taken rest).armSteps_plan k p) rfl
      intro t
      refine ⟨by rw [run, armRequest_now _ claims hn], ?_, fun e he => ?_⟩
      · rw [table.plans, setPlan_same, Plan.fired,
          show ((s.taken rest).armSteps k p).timeBase = s.timeBase by rw [(s.taken rest).armSteps_frame k p]; rfl]
        rfl
      · rw [table.claims]
        exact ((s.taken rest).armSteps_claims k p e).trans (if_pos he)

end Sys2Proof.Machine
end

section
/-! Guards that resume together (R66, R67, R153). -/

namespace Sys2Proof.Machine

/-! ### The state that a move leaves a guard in (R53) -/

/-- The state of a guard after a move from state `old`. -/
def GuardMove.after (old : GuardState) : GuardMove → GuardState
  | .stay => old
  | .to next => next
  | .switch _ next => next

/-- What `f` does leaves the guard of `e` in its state. -/
def KeepsGuard (e : Port) (f : State → State) : Prop :=
  ∀ t : State, (f t).guards[e].map Guard.state = t.guards[e].map Guard.state

section
variable {s t : State} {e : Port} {r : Guard} {f : GuardFields}

theorem State.OnlyAt.keepsGuard {j : Port} {g : State → State} (h : ∀ t, State.OnlyAt j t (g t)) (hj : e ≠ j) :
    KeepsGuard e g := fun t => by rw [(h t).guards e hj]

theorem State.guardTo_state (t : State) (e : Port) (next : GuardState) :
    (t.guardTo e next).guards[e].map Guard.state = t.guards[e].map fun _ => next := by
  rw [State.guardTo, setGuard_same, Option.map_map]
  rfl

/-- Among what a guard's move brings about the guard's own step alone takes it to another state (R53, R54). -/
theorem State.guardParts_guard (s : State) (e : Port) (m : GuardMove) (old : GuardState) :
    ∀ b ∈ s.guardParts e m, ∀ g ∈ b, g = (State.guardTo · e (m.after old)) ∨ KeepsGuard e g := by
  intro b hb g hg
  unfold State.guardParts at hb
  split at hb
  · match m, hb with
    | .stay, hb => exact absurd hb List.not_mem_nil
    | .to next, hb =>
      rw [List.mem_singleton.mp hb] at hg
      exact .inl (List.mem_singleton.mp hg)
    | .switch sel next, hb =>
      simp only [List.mem_cons, List.not_mem_nil, or_false] at hb
      rcases hb with rfl | rfl | rfl
      · rcases List.mem_pair.mp hg with rfl | rfl
        · exact .inl rfl
        · exact .inr fun t => by rw [(t.occur_sameMap _).guards]
      · exact .inr fun t => (Egress.injectionPart_changeReach _ e _ g hg t).guard
      · exact .inr fun t => (Egress.selectorPart_changeReach _ e _ g hg t).guard
  · exact absurd hb List.not_mem_nil

/-- A guard that does not stay takes its step. -/
theorem State.guardParts_step (hr : s.guards[e] = some r) (hf : s.egresses[e].entry.guard = some f) {m : GuardMove}
    (hm : m ≠ .stay) (old : GuardState) :
    ∃ b ∈ s.guardParts e m, (State.guardTo · e (m.after old)) ∈ b := by
  match m, hm with
  | .stay, hm => exact absurd rfl hm
  | .to next, _ =>
    rw [State.guardParts_to hr hf]
    exact ⟨_, List.mem_cons_self, List.mem_cons_self⟩
  | .switch sel next, _ =>
    rw [State.guardParts_switch hr hf]
    exact ⟨_, List.mem_cons_self, List.mem_cons_self⟩

/-- A guard moves together with blocks that leave it in its state: it ends where its move takes it. -/
theorem State.together_guardState (hr : s.guards[e] = some r) (hf : s.egresses[e].entry.guard = some f)
    (m : GuardMove) (blocks : List (List (State → State))) (hown : ∀ b ∈ s.guardParts e m, b ∈ blocks)
    (hothers : ∀ b ∈ blocks, b ∈ s.guardParts e m ∨ ∀ g ∈ b, KeepsGuard e g) (ht : t.guards[e] = some r) :
    (t.together blocks).guards[e].map Guard.state = some (m.after r.state) := by
  have kinds (b) (hb : b ∈ blocks) (g) (hg : g ∈ b) : g = (State.guardTo · e (m.after r.state)) ∨ KeepsGuard e g :=
    (hothers b hb).elim (fun hb => s.guardParts_guard e m r.state b hb g hg) fun hk => .inr (hk g hg)
  by_cases hm : m = .stay
  · subst hm
    refine State.together_keeps (fun t => t.guards[e].map Guard.state = some r.state) (fun _ _ h => h) t blocks
      (fun b hb g hg u hu => ?_) (by rw [ht]; rfl)
    rcases hothers b hb with hb | hk
    · rw [s.guardParts_stay] at hb
      exact absurd hb List.not_mem_nil
    · exact (hk g hg u).trans hu
  · obtain ⟨b, hb, hstep⟩ := State.guardParts_step hr hf hm r.state
    have step {u : State} (h : u.guards[e].isSome) :
        (u.guardTo e (m.after r.state)).guards[e].map Guard.state = some (m.after r.state) := by
      obtain ⟨q, hq⟩ := Option.isSome_iff_exists.mp h
      rw [State.guardTo_state, hq]
      rfl
    have some_of_state {u : State} {x : GuardState} (h : u.guards[e].map Guard.state = some x) :
        u.guards[e].isSome := by
      rw [← Option.isSome_map (f := Guard.state), h]
      rfl
    refine State.together_reaches (fun t => t.guards[e].isSome)
      (fun t => t.guards[e].map Guard.state = some (m.after r.state)) (fun _ _ h => h) (fun _ _ h => h) t blocks
      (fun b hb g hg u hu => ?_) (fun b hb g hg u hu => ?_) ⟨b, hown b hb, _, hstep, fun u => step⟩ (by rw [ht]; rfl)
    · rcases kinds b hb g hg with rfl | hk
      · exact some_of_state (step hu)
      · obtain ⟨q, hq⟩ := Option.isSome_iff_exists.mp hu
        exact some_of_state ((hk u).trans (congrArg (Option.map Guard.state) hq))
    · rcases kinds b hb g hg with rfl | hk
      · exact step (some_of_state hu)
      · exact (hk u).trans hu

end

/-! ### What a suspended guard resumes to (R67) -/

theorem State.guardSuspended_iff (s : State) (e : Port) : s.guardSuspended e = true ↔
    ∃ r sel o, s.guards[e] = some r ∧ r.state = .suspended sel o := by
  unfold State.guardSuspended
  cases s.guards[e] with
  | none => simp
  | some r =>
    cases hs : r.state <;> simp [hs]

/-- A guard that is not suspended stays as it is. -/
theorem State.resumeMove_awake (s : State) (e : Port) (f : GuardFields) {g : GuardState}
    (h : ∀ sel o, g ≠ .suspended sel o) : s.resumeMove e f g = .stay := by
  cases g with
  | suspended sel o => exact absurd rfl (h sel o)
  | _ => rfl

/-- No guard resumes to SUSPENDED (R67). -/
theorem State.resumeMove_wakes (s : State) (e : Port) (f : GuardFields) (g : GuardState) (sel : Selection)
    (o : Override) : (s.resumeMove e f g).after g ≠ .suspended sel o := by
  cases g with
  | suspended sel' o' =>
    cases o' with
    | locked => exact nofun
    | forced => exact nofun
    | none =>
      cases sel' with
      | primary =>
        show (s.startMove e f).after _ ≠ _
        unfold State.startMove State.failMove State.holdOffMove
        split_ifs <;> exact nofun
      | standby =>
        show (s.evaluationMove e f).after _ ≠ _
        unfold State.evaluationMove
        split
        · exact nofun
        · split
          · split <;> exact nofun
          · exact nofun
  | _ => exact nofun

section
variable {s : State} {e : Port} {r : Guard} {f : GuardFields}

theorem State.guardResumeParts_some (hr : s.guards[e] = some r) (hf : s.egresses[e].entry.guard = some f) :
    s.guardResumeParts e = s.guardParts e (s.resumeMove e f r.state) := by
  unfold State.guardResumeParts
  rw [hr, hf]

/-- Only a suspended guard has something to resume. -/
theorem State.guardResumeParts_awake (h : s.guardSuspended e = false) : s.guardResumeParts e = [] := by
  unfold State.guardResumeParts
  split
  · rename_i r f hr _
    rw [s.resumeMove_awake e f fun sel o hs => ?_, s.guardParts_stay]
    rw [(s.guardSuspended_iff e).mpr ⟨r, sel, o, hr, hs⟩] at h
    cases h
  · rfl

/-- A guard record or an entry without the other has nothing to do. -/
theorem State.guardResumeParts_none (h : s.guards[e] = none ∨ s.egresses[e].entry.guard = none) :
    s.guardResumeParts e = [] := by
  unfold State.guardResumeParts
  split
  · rename_i r f hr hf
    rcases h with h | h
    · cases hr.symm.trans h
    · cases hf.symm.trans h
  · rfl

theorem guardResumes (hr : s.guards[e] = some r) (hf : s.egresses[e].entry.guard = some f) : GuardResumes s e r f := by
  refine ⟨State.guardResumeParts_some hr hf, s.guardResume_moves e r f hr hf, fun sel h => ?_, fun sel h => ?_,
    fun h => ?_, fun h => ?_, s.resumeMove_awake e f⟩
  · rw [h]
    cases sel <;> rfl
  · rw [h]
    cases sel <;> rfl
  · rw [h]
    exact ⟨State.startMove_well, State.startMove_later,
      fun hw h0 hs => (State.startMove_now hw h0).trans (State.holdOffMove_well hs),
      fun hw h0 hs => (State.startMove_now hw h0).trans (State.holdOffMove_unwell hs)⟩
  · rw [h]
    rfl

end

/-- The state in which the guard of `e` stands once it has resumed (R67). -/
def State.resumedState (s : State) (e : Port) : Option GuardState :=
  match s.guards[e], s.egresses[e].entry.guard with
  | some r, some f => some ((s.resumeMove e f r.state).after r.state)
  | g, _ => g.map Guard.state

section
variable {s t : State} {e : Port}

/-- A guard resumes together with blocks that leave it in its state. -/
theorem State.together_resumes (blocks : List (List (State → State)))
    (hown : ∀ b ∈ s.guardResumeParts e, b ∈ blocks)
    (hothers : ∀ b ∈ blocks, b ∈ s.guardResumeParts e ∨ ∀ g ∈ b, KeepsGuard e g) (ht : t.guards[e] = s.guards[e]) :
    (t.together blocks).guards[e].map Guard.state = s.resumedState e := by
  have still (h : s.guardResumeParts e = []) :
      (t.together blocks).guards[e].map Guard.state = s.guards[e].map Guard.state := by
    refine State.together_keeps (fun u => u.guards[e].map Guard.state = s.guards[e].map Guard.state) (fun _ _ h => h)
      t blocks (fun b hb g hg u hu => ?_) (by rw [ht])
    rw [h] at hothers
    exact (((hothers b hb).resolve_left List.not_mem_nil) g hg u).trans hu
  unfold State.resumedState
  cases hr : s.guards[e] with
  | none =>
    rw [still (State.guardResumeParts_none (.inl hr)), hr]
  | some r =>
    cases hf : s.egresses[e].entry.guard with
    | none => rw [still (State.guardResumeParts_none (.inr hf)), hr]
    | some f =>
      rw [State.guardResumeParts_some hr hf] at hown hothers
      exact State.together_guardState hr hf _ blocks hown hothers (ht.trans hr)

theorem State.guardResume_state (s : State) (e : Port) :
    (s.guardResume e).guards[e].map Guard.state = s.resumedState e :=
  State.together_resumes _ (fun _ hb => hb) (fun _ hb => .inl hb) rfl

/-- Where each guard has its entry, no guard that has resumed is suspended (R52, R67). -/
theorem State.resumedState_awake (hs : s.GuardsMatch) (e : Port) (sel : Selection) (o : Override) :
    s.resumedState e ≠ some (.suspended sel o) := by
  have hmatch := hs e
  unfold State.resumedState
  cases hr : s.guards[e] with
  | none => exact nofun
  | some r =>
    cases hf : s.egresses[e].entry.guard with
    | none =>
      rw [hr, hf] at hmatch
      cases hmatch
    | some f => exact fun h => s.resumeMove_wakes e f r.state sel o (Option.some.inj h)

end

/-! ### The suspended guards of a list of egresses (R90, step 3) -/

/-- What the blocks do as the suspended guards of a list of egresses resume. -/
def State.resumeBlocks (s : State) (es : List Port) : List (List (State → State)) :=
  (allPorts.filter fun e => decide (e ∈ es) && s.guardSuspended e).flatMap s.guardResumeParts

section
variable (s : State) (es : List Port)

theorem State.resumeGuards_eq : s.resumeGuards es = s.together (s.resumeBlocks es) := by
  unfold State.resumeGuards State.resumeBlocks
  simp only [List.contains_eq_mem]

theorem State.mem_resumeBlocks (b : List (State → State)) :
    b ∈ s.resumeBlocks es ↔ ∃ e ∈ es, s.guardSuspended e = true ∧ b ∈ s.guardResumeParts e := by
  simp [State.resumeBlocks, allPorts, and_assoc]

/-- What resumes at one egress is that egress's alone (R49). -/
theorem State.guardResumeParts_onlyAt (e : Port) :
    ∀ b ∈ s.guardResumeParts e, ∀ f ∈ b, ∀ t : State, State.OnlyAt e t (f t) := by
  obtain ⟨m, hm⟩ := s.guardResumeParts_move e
  rw [hm]
  exact s.guardParts_onlyAt e m

theorem State.resumeGuards_reach : s.GuardReach (s.resumeGuards es) := by
  rw [s.resumeGuards_eq]
  refine s.together_reach _ fun b hb => ?_
  obtain ⟨e, -, -, hb⟩ := (s.mem_resumeBlocks es b).mp hb
  exact s.guardResumeParts_reach e b hb

theorem State.resumeGuards_other {e : Port} (he : e ∉ es) : (s.resumeGuards es).egresses[e] = s.egresses[e]
    ∧ (s.resumeGuards es).guards[e] = s.guards[e] ∧ (s.resumeGuards es).pool.views[e] = s.pool.views[e] := by
  rw [s.resumeGuards_eq]
  refine State.together_keeps (fun t => t.egresses[e] = s.egresses[e] ∧ t.guards[e] = s.guards[e]
    ∧ t.pool.views[e] = s.pool.views[e]) (fun _ _ h => h) s _ (fun b hb f hf t ht => ?_) ⟨rfl, rfl, rfl⟩
  obtain ⟨j, hj, -, hb⟩ := (s.mem_resumeBlocks es b).mp hb
  have only := s.guardResumeParts_onlyAt j b hb f hf t
  have hej : e ≠ j := fun h => he (h ▸ hj)
  exact ⟨(only.egresses e hej).trans ht.1, (only.guards e hej).trans ht.2.1, (only.views e hej).trans ht.2.2⟩

/-- Each guard of the list resumes as it would alone (R67, R153). -/
theorem State.resumeGuards_state {e : Port} (he : e ∈ es) :
    (s.resumeGuards es).guards[e].map Guard.state = s.resumedState e := by
  rw [s.resumeGuards_eq]
  refine State.together_resumes _ (fun b hb => ?_) (fun b hb => ?_) rfl
  · cases hs : s.guardSuspended e with
    | true => exact (s.mem_resumeBlocks es b).mpr ⟨e, he, hs, hb⟩
    | false =>
      rw [State.guardResumeParts_awake hs] at hb
      exact absurd hb List.not_mem_nil
  · obtain ⟨j, -, -, hb⟩ := (s.mem_resumeBlocks es b).mp hb
    by_cases hj : e = j
    · exact .inl (hj ▸ hb)
    · exact .inr fun g hg => State.OnlyAt.keepsGuard (s.guardResumeParts_onlyAt j b hb g hg) hj

end

end Sys2Proof.Machine
end

section
/-! PLAN_CANCEL and the two expiries (R90, R91, R106, R107, R136). -/

namespace Sys2Proof.Machine

/-! ### The stranded frames (R136) -/

/-- No queued frame of `e`, and no OPEN context that targets it. -/
def Pool.EmptyFor (p : Pool) (e : Port) : Prop :=
  p.views[e].queue = [] ∧ ∀ (k : ContextId) (c : Context), p.contexts[k] = some c → c.target ≠ e

section
variable (p : Pool) (e : Port)

theorem Pool.contextsFor_nil : p.contextsFor e = [] ↔
    ∀ (k : ContextId) (c : Context), p.contexts[k] = some c → c.target ≠ e := by
  unfold Pool.contextsFor
  rw [List.filterMap_eq_nil_iff]
  constructor
  · intro h k c hk
    have := h p.contexts[k] (Vector.mem_toList_iff.mpr (Vector.getElem_mem k.isLt))
    simpa [hk] using this
  · intro h x hx
    obtain ⟨i, hi, rfl⟩ := Vector.mem_iff_getElem.mp (Vector.mem_toList_iff.mp hx)
    rw [Option.filter_eq_none_iff]
    exact fun c hc => by simpa using h ⟨i, hi⟩ c hc

theorem Pool.holdsFor_iff : p.holdsFor e = true ↔ p.views[e].queue ≠ []
    ∨ ∃ (k : ContextId) (c : Context), p.contexts[k] = some c ∧ c.target = e := by
  have contexts : p.contextsFor e ≠ [] ↔
      ∃ (k : ContextId) (c : Context), p.contexts[k] = some c ∧ c.target = e := by
    rw [ne_eq, p.contextsFor_nil e]
    simp only [not_forall, ne_eq, not_not, exists_prop]
  rw [← contexts]
  simp only [Pool.holdsFor, Bool.or_eq_true, Bool.not_eq_true', List.isEmpty_eq_false_iff]

theorem Pool.emptyFor_of_holdsFor (h : p.holdsFor e = false) : p.EmptyFor e := by
  have h := (p.holdsFor_iff e).not.mp (Bool.eq_false_iff.mp h)
  rw [not_or, not_not] at h
  exact ⟨h.1, fun k c hk hc => h.2 ⟨k, c, hk, hc⟩⟩

/-- A discard empties its own egress, and fills no other (R136). -/
theorem Pool.discard_emptyFor (j : Port) (h : e = j ∨ p.EmptyFor e) : (p.discard j).EmptyFor e := by
  refine ⟨?_, fun k c hk => ?_⟩
  · by_cases he : e = j
    · rw [he, discard_queue]
    · rw [discard_other p j e he]
      exact (h.resolve_left he).1
  · rw [discard_contexts, Option.filter_eq_some_iff, decide_eq_true_eq] at hk
    exact h.elim (fun he => he ▸ hk.2) fun he => he.2 k c hk.1

end

/-- From `s` to `t` stranded frames have been discarded: nothing has changed but the pool, notices, and the count of
draws. -/
structure State.DropReach (s t : State) : Prop where
  frame : ∃ p cs ns l d, t = { s with pool := p, conds := cs, notices := ns, link := l, draws := d }
  only : s.NoticesOnly t noneOccurred

section
variable {s t u : State}

theorem State.DropReach.refl (s : State) : s.DropReach s := ⟨⟨_, _, _, _, _, rfl⟩, .refl _ s⟩

theorem State.DropReach.trans (h : s.DropReach t) (k : t.DropReach u) : s.DropReach u := by
  obtain ⟨_, _, _, _, _, hf⟩ := h.frame
  obtain ⟨p, cs, ns, l, d, kf⟩ := k.frame
  exact ⟨⟨p, cs, ns, l, d, by rw [kf, hf]⟩, h.only.trans k.only⟩

theorem State.DropReach.egresses (h : s.DropReach t) : t.egresses = s.egresses := by
  obtain ⟨_, _, _, _, _, h⟩ := h.frame
  rw [h]

theorem State.DropReach.guards (h : s.DropReach t) : t.guards = s.guards := by
  obtain ⟨_, _, _, _, _, h⟩ := h.frame
  rw [h]

theorem State.DropReach.group (h : s.DropReach t) : t.group = s.group := by
  obtain ⟨_, _, _, _, _, h⟩ := h.frame
  rw [h]

theorem State.injectDiscard_drop (s : State) (e : Port) : s.DropReach (s.injectDiscard e) := by
  obtain ⟨⟨p, cs, ns, l, h⟩, hn⟩ := s.injectDiscard_touches e
  exact ⟨⟨p, cs, ns, s.link.withSending l, s.draws, h⟩, hn⟩

theorem State.dropStranded_drop (s : State) (p : Plan) : s.DropReach (s.dropStranded p) :=
  State.inSomeOrder_keeps s.DropReach s _ _
    (fun _ n h => h.trans ⟨⟨_, _, _, _, n, rfl⟩, .of_eq rfl rfl rfl fun _ _ => rfl⟩)
    (fun e _ t h => h.trans (t.injectDiscard_drop e)) (.refl s)

/-- Whose frames are stranded: an edit would have put the egress on INJECT, it is not on it, and it has something to
lose (R90, R136). -/
theorem State.mem_strandedInject (s : State) (p : Plan) (e : Port) : e ∈ s.strandedInject p ↔
    (∃ d ∈ p.edits, d.egress = e ∧ d.entry.source = .inject) ∧ s.egresses[e].onInject = false
      ∧ s.pool.holdsFor e = true := by
  unfold State.strandedInject
  simp only [List.mem_filter, Bool.and_eq_true, Bool.not_eq_true', List.any_eq_true, decide_eq_true_eq, and_assoc]
  refine ⟨And.right, fun h => ⟨?_, h⟩⟩
  obtain ⟨⟨d, hd, rfl, -⟩, -⟩ := h
  exact List.mem_map_of_mem hd

/-- The stranded frames are discarded egress by egress, in some order (R90, step 4). -/
theorem State.dropStranded_order (s : State) (p : Plan) : ∃ (l : List Port) (draws : Nat),
    l.Perm (s.strandedInject p) ∧ s.dropStranded p = l.foldl State.injectDiscard (s.setDraws draws) :=
  s.inSomeOrder_order (s.strandedInject p) fun e t => t.injectDiscard e

theorem State.discards_emptyFor (l : List Port) (s : State) (e : Port) (h : e ∈ l ∨ s.pool.EmptyFor e) :
    (l.foldl State.injectDiscard s).pool.EmptyFor e := by
  induction l generalizing s with
  | nil => exact h.resolve_left List.not_mem_nil
  | cons x l ih =>
    refine ih (s.injectDiscard x) ?_
    rw [s.injectDiscard_pool x]
    rcases h with h | h
    · exact (List.mem_cons.mp h).symm.imp_right fun he => s.pool.discard_emptyFor e x (.inl he)
    · exact .inr (s.pool.discard_emptyFor e x (.inr h))

/-- An egress that an edit would have put on INJECT and that is not on it keeps no frame that waits (R136). -/
theorem State.dropStranded_emptyFor {p : Plan} {d : Edit} (hd : d ∈ p.edits) (hsrc : d.entry.source = .inject)
    (hoff : s.egresses[d.egress].onInject = false) : (s.dropStranded p).pool.EmptyFor d.egress := by
  obtain ⟨l, draws, hl, hdrop⟩ := s.dropStranded_order p
  rw [hdrop]
  refine State.discards_emptyFor l _ _ ?_
  cases hold : s.pool.holdsFor d.egress with
  | true => exact .inl (hl.mem_iff.mpr ((s.mem_strandedInject p _).mpr ⟨⟨d, hd, rfl, hsrc⟩, hoff, hold⟩))
  | false => exact .inr (s.pool.emptyFor_of_holdsFor _ hold)

/-- No view of an egress that the plan does not edit is emptied (R49). -/
theorem State.dropStranded_views {p : Plan} {e : Port} (he : e ∉ p.edits.map (·.egress)) :
    (s.dropStranded p).pool.views[e] = s.pool.views[e] := by
  refine State.inSomeOrder_keeps (fun t => t.pool.views[e] = s.pool.views[e]) s _ _ (fun _ _ h => h)
    (fun j hj t ht => ?_) rfl
  obtain ⟨⟨d, hd, rfl, -⟩, -⟩ := (s.mem_strandedInject p j).mp hj
  exact ((t.injectDiscard_onlyAt d.egress).views e fun h => he (h ▸ List.mem_map_of_mem hd)).trans ht

end

/-! ### The group interface is told (R106, R107) -/

section
variable {s : State}

theorem State.groupPlanGone_idles
    (h : s.group.membership = .member .lowWait ∨ ∃ left, s.group.membership = .member (.released left)) :
    s.groupPlanGone = (s.setGroup { s.group with plan := none }).groupTo (.member .lowIdle) := by
  unfold State.groupPlanGone
  rcases h with h | ⟨left, h⟩ <;> rw [h]

theorem State.groupPlanGone_stays (hw : s.group.membership ≠ .member .lowWait)
    (hr : ∀ left, s.group.membership ≠ .member (.released left)) :
    s.groupPlanGone = s.setGroup { s.group with plan := none } := by
  unfold State.groupPlanGone
  dsimp only
  split
  · exact absurd ‹_› hw
  · exact absurd ‹_› (hr _)
  all_goals rfl

/-- Without a running qualification the choice has no effect (R106; log entry 13). -/
theorem State.groupToldGone_plain {first : Bool}
    (h : first = false ∨ ∀ left, s.group.membership ≠ .member (.released (some left))) :
    s.groupToldGone first = s.groupPlanGone := by
  refine if_neg fun hq => ?_
  rw [Bool.and_eq_true] at hq
  rcases h with h | h
  · rw [h] at hq
    cases hq.1
  · obtain ⟨left, hm⟩ := s.group.qualifying_iff.mp hq.2
    exact h left hm

/-- A qualification taken first: the part has fired on the line, and holds (R104, R106, R107). -/
theorem State.groupToldGone_fired {left : Nat} (h : s.group.membership = .member (.released (some left))) :
    s.groupToldGone true = s.setGroup { s.group with
      membership := .member (.hold 2000), faultTimer := none, epoch := s.group.epoch + 1, plan := none } := by
  have told : s.groupToldGone true = (s.setGroup s.group.fire).groupPlanGone :=
    if_pos (s.group.qualifying_iff.mpr ⟨left, h⟩)
  rw [told, s.group.fire_eq]
  exact State.groupPlanGone_stays nofun nofun

theorem State.groupToldGone_stays {first : Bool} (hw : s.group.membership ≠ .member .lowWait)
    (hr : ∀ left, s.group.membership ≠ .member (.released left)) :
    s.groupToldGone first = s.setGroup { s.group with plan := none } :=
  (State.groupToldGone_plain (.inr fun left => hr (some left))).trans (State.groupPlanGone_stays hw hr)

theorem State.groupToldGone_wait {first : Bool} (h : s.group.membership = .member .lowWait) :
    s.groupToldGone first = (s.setGroup { s.group with plan := none }).groupTo (.member .lowIdle) :=
  (State.groupToldGone_plain (.inr fun left hm => by rw [h] at hm; cases hm)).trans
    (State.groupPlanGone_idles (.inl h))

theorem State.groupToldGone_released {first : Bool} {left : Option Nat}
    (h : s.group.membership = .member (.released left)) (hq : first = false ∨ left = none) :
    s.groupToldGone first = (s.setGroup { s.group with plan := none }).groupTo (.member .lowIdle) := by
  refine (State.groupToldGone_plain (hq.imp_right fun hl n hm => ?_)).trans (State.groupPlanGone_idles (.inr ⟨left, h⟩))
  rw [h, hl] at hm
  cases hm

/-- Everything but the group interface stays, and the count of draws where the wiring shows. -/
theorem State.groupToldGone_frame (s : State) (first : Bool) :
    ∃ g d, s.groupToldGone first = { s with group := g, draws := d } ∧ g.plan = none := by
  have gone (t : State) : ∃ g d, t.groupPlanGone = { t with group := g, draws := d } ∧ g.plan = none := by
    unfold State.groupPlanGone State.groupTo
    dsimp only
    split
    · split <;> exact ⟨_, _, rfl, rfl⟩
    · split <;> exact ⟨_, _, rfl, rfl⟩
    all_goals exact ⟨_, _, rfl, rfl⟩
  unfold State.groupToldGone
  split
  · obtain ⟨g, d, h, hg⟩ := gone (s.setGroup s.group.fire)
    exact ⟨g, d, h, hg⟩
  · exact gone s

/-- A line that reads HIGH and that the part begins to pull down reads LOW at once where the wiring is sound (R97). -/
theorem State.groupTo_idle_high {g : Group} {left : Option Nat} (h : g.membership = .member (.released left)) :
    ((s.setGroup g).groupTo (.member .lowIdle)).group.high = (g.high && !Config.grdySound s.draws) := by
  have released : g.driveLow = false := congrArg Membership.driveLow h
  show (g.moveTo (.member .lowIdle) _).high = _
  unfold Group.moveTo Group.pullsDown
  rw [released]
  cases g.high <;> rfl

theorem groupToldGone_cases (w : State) (first : Bool) : GroupToldGone w first := by
  refine ⟨State.groupToldGone_wait, fun left h hq => ?_, fun left h hq => ?_, State.groupToldGone_stays,
    State.groupTo_moves _⟩
  · have told := State.groupToldGone_released h hq
    have high : (w.groupToldGone first).group.high = (w.group.high && !Config.grdySound w.draws) := by
      rw [told]
      exact State.groupTo_idle_high h
    exact ⟨told, fun hlow => by rw [high, hlow]; rfl, fun hhigh => by rw [high, hhigh]; rfl⟩
  · rw [hq]
    exact State.groupToldGone_fired h

end

/-! ### What an ARMED plan lets go of (R90, steps 2 to 5) -/

/-- Steps 2 to 4 of R90: claims released, guards resumed, stranded frames discarded. -/
def State.releaseSteps (s : State) (p : Plan) : State :=
  ((s.releaseClaims (p.edits.map (·.egress))).resumeGuards (p.edits.map (·.egress))).dropStranded p

theorem State.letGo_eq (s : State) (p : Plan) (first : Bool) :
    s.letGo p first = if p.trigger.isGroup then (s.releaseSteps p).groupToldGone first else s.releaseSteps p := rfl

theorem State.releaseClaims_frame (s : State) (es : List Port) :
    ∃ cl, s.releaseClaims es = { s with claims := cl } := by
  unfold State.releaseClaims
  induction es generalizing s with
  | nil => exact ⟨s.claims, rfl⟩
  | cons e es ih =>
    obtain ⟨cl, h⟩ := ih (s.setClaim e none)
    exact ⟨cl, h⟩

/-- Guards resume by what their records, entries and lines are: claims have no part in it (R67). -/
theorem State.resumedState_of_claims (s : State) (cl : Vector (Option Byte) 16) (e : Port) :
    ({ s with claims := cl } : State).resumedState e = s.resumedState e := rfl

theorem State.resumeBlocks_of_claims (s : State) (cl : Vector (Option Byte) 16) (es : List Port) :
    ({ s with claims := cl } : State).resumeBlocks es = s.resumeBlocks es := rfl

section
variable (s : State) (p : Plan)

theorem State.releaseSteps_group : (s.releaseSteps p).group = s.group := by
  obtain ⟨cl, hcl⟩ := s.releaseClaims_frame (p.edits.map (·.egress))
  obtain ⟨⟨_, _, _, _, _, _, _, hv⟩, -⟩ :=
    (s.releaseClaims (p.edits.map (·.egress))).resumeGuards_reach (p.edits.map (·.egress))
  refine (State.dropStranded_drop _ p).group.trans ?_
  rw [hv, hcl]

theorem State.releaseSteps_only : s.NoticesOnly (s.releaseSteps p) guardsOccurred := by
  obtain ⟨cl, hcl⟩ := s.releaseClaims_frame (p.edits.map (·.egress))
  have released : s.NoticesOnly (s.releaseClaims (p.edits.map (·.egress))) guardsOccurred := by
    rw [hcl]
    exact .of_eq rfl rfl rfl fun _ _ => rfl
  exact (released.trans (State.resumeGuards_reach _ _).2).trans
    ((State.dropStranded_drop _ p).only.mono fun _ => False.elim)

theorem State.releaseSteps_other {e : Port} (he : e ∉ p.edits.map (·.egress)) :
    (s.releaseSteps p).egresses[e] = s.egresses[e] ∧ (s.releaseSteps p).guards[e] = s.guards[e]
      ∧ (s.releaseSteps p).pool.views[e] = s.pool.views[e] := by
  obtain ⟨cl, hcl⟩ := s.releaseClaims_frame (p.edits.map (·.egress))
  obtain ⟨hegress, hguard, hview⟩ := State.resumeGuards_other (s.releaseClaims (p.edits.map (·.egress))) _ he
  have dropped := State.dropStranded_drop
    ((s.releaseClaims (p.edits.map (·.egress))).resumeGuards (p.edits.map (·.egress))) p
  refine ⟨?_, ?_, ?_⟩
  · rw [State.releaseSteps, dropped.egresses, hegress, hcl]
  · rw [State.releaseSteps, dropped.guards, hguard, hcl]
  · rw [State.releaseSteps, State.dropStranded_views he, hview, hcl]

theorem State.releaseSteps_state {e : Port} (he : e ∈ p.edits.map (·.egress)) :
    (s.releaseSteps p).guards[e].map Guard.state = s.resumedState e := by
  obtain ⟨cl, hcl⟩ := s.releaseClaims_frame (p.edits.map (·.egress))
  rw [State.releaseSteps, (State.dropStranded_drop _ p).guards, State.resumeGuards_state _ _ he, hcl,
    s.resumedState_of_claims cl e]

theorem State.releaseSteps_emptyFor {d : Edit} (hd : d ∈ p.edits) (hsrc : d.entry.source = .inject)
    (hoff : (s.releaseSteps p).egresses[d.egress].onInject = false) :
    (s.releaseSteps p).pool.EmptyFor d.egress := by
  refine State.dropStranded_emptyFor hd hsrc ?_
  rw [State.releaseSteps, (State.dropStranded_drop _ p).egresses] at hoff
  exact hoff

/-- The steps one after the other, as the guards resume together (R90, R153). -/
theorem State.releaseSteps_together : ∃ u v : State,
    (∀ e : Port, u.claims[e] = if e ∈ p.edits.map (·.egress) then none else s.claims[e])
      ∧ u = { s with claims := u.claims } ∧ u.Together (s.resumeBlocks (p.edits.map (·.egress))) v
      ∧ s.releaseSteps p = v.dropStranded p := by
  obtain ⟨cl, hcl⟩ := s.releaseClaims_frame (p.edits.map (·.egress))
  have blocks (es : List Port) : (s.releaseClaims (p.edits.map (·.egress))).resumeBlocks es = s.resumeBlocks es := by
    rw [hcl, s.resumeBlocks_of_claims cl es]
  refine ⟨s.releaseClaims (p.edits.map (·.egress)), _, (s.releaseClaims_claims _).2, by rw [hcl], ?_, rfl⟩
  rw [State.resumeGuards_eq, blocks]
  exact State.together_order _ _

variable (first : Bool)

/-- The group interface being told changes the group interface alone. -/
theorem State.letGo_frame : ∃ g d, s.letGo p first = { s.releaseSteps p with group := g, draws := d } := by
  rw [s.letGo_eq p first]
  split
  · obtain ⟨g, d, h, -⟩ := (s.releaseSteps p).groupToldGone_frame first
    exact ⟨g, d, h⟩
  · exact ⟨_, _, rfl⟩

theorem State.letGo_single (h : p.trigger.isGroup = false) : s.letGo p first = s.releaseSteps p :=
  (s.letGo_eq p first).trans (if_neg (Bool.eq_false_iff.mp h))

theorem State.letGo_group (h : p.trigger.isGroup = true) :
    s.letGo p first = (s.releaseSteps p).groupToldGone first := (s.letGo_eq p first).trans (if_pos h)

theorem State.letGo_only : s.NoticesOnly (s.letGo p first) guardsOccurred := by
  obtain ⟨g, d, h⟩ := s.letGo_frame p first
  rw [h]
  exact (s.releaseSteps_only p).trans (.of_eq rfl rfl rfl fun _ _ => rfl)

theorem State.letGo_fixed : (s.letGo p first).plans = s.plans ∧ (s.letGo p first).ports = s.ports
    ∧ (s.letGo p first).timeBase = s.timeBase := by
  refine ⟨(s.letGo_table p first).plans.trans (s.releaseClaims_claims _).1, ?_⟩
  obtain ⟨⟨_, _, _, _, _, _, _, _, _, _, _, h⟩, -⟩ := s.letGo_control p first
  rw [h]
  exact ⟨rfl, rfl⟩

theorem State.letGo_other {e : Port} (he : e ∉ p.edits.map (·.egress)) :
    (s.letGo p first).egresses[e] = s.egresses[e] ∧ (s.letGo p first).guards[e] = s.guards[e]
      ∧ (s.letGo p first).pool.views[e] = s.pool.views[e] := by
  obtain ⟨g, d, h⟩ := s.letGo_frame p first
  rw [h]
  exact s.releaseSteps_other p he

theorem State.letGo_claims (e : Port) :
    (s.letGo p first).claims[e] = if e ∈ p.edits.map (·.egress) then none else s.claims[e] := by
  rw [(s.letGo_table p first).claims]
  exact (s.releaseClaims_claims _).2 e

theorem State.letGo_state {e : Port} (he : e ∈ p.edits.map (·.egress)) :
    (s.letGo p first).guards[e].map Guard.state = s.resumedState e := by
  obtain ⟨g, d, h⟩ := s.letGo_frame p first
  rw [h]
  exact s.releaseSteps_state p he

/-- Every edited egress's guard has resumed (R90, step 3). -/
theorem State.letGo_awake (hs : s.GuardsMatch) {e : Port} (he : e ∈ p.edits.map (·.egress)) :
    (s.letGo p first).guardSuspended e = false := by
  refine Bool.eq_false_iff.mpr fun h => ?_
  obtain ⟨r, sel, o, hr, hstate⟩ := (State.guardSuspended_iff _ e).mp h
  refine State.resumedState_awake hs e sel o ?_
  rw [← s.letGo_state p first he, hr, ← hstate]
  rfl

theorem State.letGo_emptyFor {d : Edit} (hd : d ∈ p.edits) (hsrc : d.entry.source = .inject)
    (hoff : (s.letGo p first).egresses[d.egress].onInject = false) : (s.letGo p first).pool.EmptyFor d.egress := by
  obtain ⟨g, n, h⟩ := s.letGo_frame p first
  rw [h] at hoff ⊢
  exact s.releaseSteps_emptyFor p hd hsrc hoff

end

/-- How a GROUP plan's end leaves the group interface (R106, R107). -/
theorem State.letGo_groupCases (s : State) (p : Plan) (first : Bool) (hg : p.trigger.isGroup = true) :
    let t := s.letGo p first
    t.group.plan = none
      ∧ (s.group.membership = .member .lowWait → t.group.membership = .member .lowIdle)
      ∧ (∀ left, s.group.membership = .member (.hold left) →
          t.group.membership = .member (.hold left) ∧ t.group.epoch = s.group.epoch)
      ∧ (∀ left, s.group.membership = .member (.released left) → first = false ∨ left = none →
          t.group.membership = .member .lowIdle ∧ t.group.epoch = s.group.epoch)
      ∧ (∀ left, s.group.membership = .member (.released (some left)) → first = true →
          t.group.membership = .member (.hold 2000) ∧ t.group.epoch = s.group.epoch + 1) := by
  rw [s.letGo_group p first hg, ← s.releaseSteps_group p]
  generalize s.releaseSteps p = w
  obtain ⟨g, d, hframe, hplan⟩ := w.groupToldGone_frame first
  refine ⟨by rw [hframe]; exact hplan, fun h => ?_, fun left h => ?_, fun left h hq => ?_, fun left h hq => ?_⟩
  · rw [State.groupToldGone_wait h]
    rfl
  · rw [State.groupToldGone_stays (by rw [h]; exact nofun) (by rw [h]; exact nofun)]
    exact ⟨h, rfl⟩
  · rw [State.groupToldGone_released h hq]
    exact ⟨rfl, rfl⟩
  · rw [hq, State.groupToldGone_fired h]
    exact ⟨rfl, rfl⟩

/-! ### The command and the expiries (R78, R79, R91) -/

section
variable {s : State} {m : Message} {rest : List Message} {k : SlotId} {p : Plan}

theorem execPlanCancel_eq (first : Bool) (h : s.CanTake m rest 0x33) : exec (.planCancel first) s
    = .next ((planRequest (cancelRequest first) m (s.taken rest)).2.replied m
        (planRequest (cancelRequest first) m (s.taken rest)).1) :=
  congrArg Host.Outcome.next (s.execute_kind m rest 0x33 (planRequest (cancelRequest first)) h)

theorem State.waits_of_armed {group : Bool} (hp : s.plans[k] = some p) (ha : p.state = .armed) (ht : p.timer.isSome)
    (hg : p.trigger.isGroup = group) : s.waits k group = true := by
  unfold State.waits
  rw [hp]
  simp [ha, ht, hg]

theorem execArmExpiry_run (hrun : s.phase = .run) (hp : s.plans[k] = some p) (ha : p.state = .armed)
    (ht : p.timer.isSome) (hg : p.trigger.isGroup = false) :
    exec (.armExpiry k) s = .next (s.expirePlan k p .armTimeout false).arbitrate := by
  refine congrArg Host.Outcome.next ((s.event_taken _ _ hrun (State.waits_of_armed hp ha ht hg)).trans ?_)
  rw [hp]

theorem execGroupWaitExpiry_run (first : Bool) (hrun : s.phase = .run) (hp : s.plans[k] = some p)
    (ha : p.state = .armed) (ht : p.timer.isSome) (hg : p.trigger.isGroup = true) :
    exec (.groupWaitExpiry k first) s = .next (s.expirePlan k p .groupTimeout first).arbitrate := by
  refine congrArg Host.Outcome.next ((s.event_taken _ _ hrun (State.waits_of_armed hp ha ht hg)).trans ?_)
  rw [hp]

end

/-- Settles O41: the request by the state of its plan, the two expiries, and what an ARMED plan lets go of, step by
step. -/
theorem cancelAndExpiryLetGoOfThePlan : Obligations.CancelAndExpiryLetGoOfThePlan := by
  refine ⟨fun s m rest id k p first hcan hm => ?_, fun s k p first hrun hp ha ht => ?_, fun s p first => ?_⟩
  · intro t refused
    have run := execPlanCancel_eq first hcan
    refine ⟨fun h0 => ?_, fun h0 hnone => ?_, fun h0 hfound => ?_⟩
    · show exec (.planCancel first) s = _
      rw [run, planRequest_zero _ _ (h0 ▸ hm)]
    · show exec (.planCancel first) s = _
      rw [run, planRequest_unknown _ (s.taken rest) hm h0 hnone]
    · rw [planRequest_found _ (s.taken rest) hm h0 hfound, cancelRequest] at run
      refine ⟨fun h => ?_, fun h => ?_, fun h => ?_, fun h => ?_⟩
      · rw [run, h]
      · rw [run, h]
      · show exec (.planCancel first) s = _
        rw [run, h]
      · show exec (.planCancel first) s = _
        rcases h with h | h | h <;> rw [run, h]
  · exact ⟨execArmExpiry_run hrun hp ha ht, execGroupWaitExpiry_run first hrun hp ha ht⟩
  · intro t
    obtain ⟨hplans, hports, htime⟩ := s.letGo_fixed p first
    refine ⟨hplans, hports, htime, s.letGo_only p first,
      fun e => ⟨(s.letGo_mapStays p first).entry e, s.letGo_claims p first e⟩, fun e => s.letGo_other p first,
      fun hs e he => s.letGo_awake p first hs he,
      fun e he => (s.letGo_state p first he).trans (s.guardResume_state e).symm, fun e r f => guardResumes,
      s.guardSuspended_iff, ?_, ?_, fun d hd hsrc hoff => s.letGo_emptyFor p first hd hsrc hoff, fun hg => ?_,
      s.letGo_groupCases p first⟩
    · obtain ⟨l, draws, hl, hdrop⟩ := s.dropStranded_order p
      refine ⟨l, draws, fun e => ?_, fun hn => hl.nodup_iff.mpr (hn.filter _), hdrop⟩
      rw [hl.mem_iff, s.mem_strandedInject, s.pool.holdsFor_iff]
    · obtain ⟨u, v, hclaims, hu, htogether, hsteps⟩ := s.releaseSteps_together p
      exact ⟨u, v, s.releaseSteps p, hclaims, hu, htogether, hsteps, s.releaseSteps_group p, s.letGo_eq p first,
        groupToldGone_cases _ first⟩
    · rw [show t = _ from s.letGo_single p first hg, s.releaseSteps_group p]

end Sys2Proof.Machine
end
